-- ==== Sys2Proof/Word.lean ====
section
/-! DEFINITION. The unsigned widths and the byte sequences of the data model (00_scope.md R7, R9, R10, R12).
Bit 0 is the least significant bit and every operation wraps at its stated width, which is what `BitVec` does.
The maps between words and byte sequences are in Machine/Bytes.lean. -/

namespace Sys2Proof

/-- A u32: every register of the window is 32 bits wide (10_state.md R23). -/
abbrev Word := BitVec 32

/-- A u64: the master and device keys (R7). -/
abbrev DWord := BitVec 64

/-- A u8. -/
abbrev Byte := BitVec 8

/-- The CipherState `[S0, S1, S2, S3]`: 4 ordered bytes (10_state.md R32; S3 is the top register, R17). -/
structure CState where
  s0 : Byte
  s1 : Byte
  s2 : Byte
  s3 : Byte
  deriving DecidableEq, Repr

/-- State byte `Sj`, for a tap `(j, b)` (41_scramble_cipher.md R131). -/
def CState.get (S : CState) (j : Fin 4) : Byte :=
  match j with
  | 0 => S.s0
  | 1 => S.s1
  | 2 => S.s2
  | 3 => S.s3

/-- The 8-byte table `T[0..7]` that drives one scramble pass (41_scramble_cipher.md R130). -/
abbrev Table := Vector Byte 8

/-- The key table `KT[0..15]` (10_state.md R35). -/
abbrev KeyTable := Vector Byte 16

/-- The payload bytes `P0..P8` (10_state.md R34). -/
abbrev PayloadBytes := Vector Byte 9

/-- One (level, duration) pulse record, `(level: u1, ticks: u32)` (43_pulse_encoder.md R190). -/
structure Record where
  level : Bool
  ticks : Word
  deriving DecidableEq, Repr

end Sys2Proof
end

