-- ==== Sys2Proof/Config.lean ====
section
/-! DEFINITION. What fixes one device, and what the spec leaves free.
`Cfg` is the configuration record of 00_scope.md R8 (its values for this hardware are `cfg` in Machine/Params.lean).
The opaque constants are the free values: they have no body, so no proof can see them. -/

namespace Sys2Proof

/-- The two readings of the tap lists of the StandardCipher (40_standard_cipher.md R101, decision D3). -/
inductive TapReading where
  | shiftMask
  | literal
  deriving DecidableEq, Repr

/-- How `KT[8..15]` is filled (41_scramble_cipher.md R136, decision D10). -/
inductive UpperFill where
  | copy
  | zero
  deriving DecidableEq, Repr

/-- A tap `(j, b)`: bit `b` of state byte `Sj` (41_scramble_cipher.md R131). -/
structure Tap where
  byte : Fin 4
  bit  : Fin 8
  deriving DecidableEq, Repr

/-- One direction's part of `SCR_TAPS` (41_scramble_cipher.md R131): the mask table, the two taps that index it,
the three taps that enable the rotations by 4, 2 and 1, the two state bytes of the feedback and its bit. -/
structure ScrTaps where
  mask : Vector Byte 4
  hi   : Tap
  lo   : Tap
  r4   : Tap
  r2   : Tap
  r1   : Tap
  fa   : Fin 4
  fb   : Fin 4
  fbit : Fin 8
  deriving DecidableEq, Repr

/-- The configuration record of 00_scope.md R8, one field per row.
`tickUs` is informative (no rule reads it) and `baseAddr` is the OPEN `BASE_ADDR`, which the platform decodes. -/
structure Cfg where
  stdTapReading  : TapReading
  scrLeft        : ScrTaps
  scrRight       : ScrTaps
  ktHalfL        : Fin 2
  ktHalfR        : Fin 2
  ktFillUpper    : UpperFill
  serNibbleInB7  : Bool
  buttonCheck    : Bool
  validButtons   : List Byte
  preambleTicks  : Nat
  headerGapTicks : Nat
  payloadBits    : Fin 73
  shortTicks     : Nat
  longTicks      : Nat
  tailGapTicks   : Nat
  tickUs         : Nat
  baseAddr       : Nat
  deriving DecidableEq, Repr

/-- FREE VALUE (assumption log 1): what the n-th read of a register in the running command's write set returns,
"an unspecified 32-bit value, a draw under no law" (70_reset_and_hazards.md R272). -/
opaque Config.freeRead : Nat → Word

/-- FREE VALUES (assumption log 2): `pls_level`, `pls_ticks` and `pls_last` once a PULSE has handed over the given records;
the spec fixes only `pls_valid = 0` there (43_pulse_encoder.md R192). They are functions of the sequence and no draws: the
only draws are the reads of R272, and identical inputs yield identical outputs (00_scope.md R18). -/
opaque Config.freeLevel : List Record → Bool

/-- FREE VALUE (assumption log 2), see `Config.freeLevel`. -/
opaque Config.freeTicks : List Record → Word

/-- FREE VALUE (assumption log 2), see `Config.freeLevel`. -/
opaque Config.freeLast : List Record → Bool

/-- FREE VALUE (assumption log 3): `BASE_ADDR`, left OPEN (00_scope.md R8, decision D16). -/
opaque Config.baseAddr : Nat

end Sys2Proof
end

