-- ==== Sys2Proof/Syntax.lean ====
section
/-! DEFINITION. The commands: one constructor per row of spec/opcode_table.json (30_encoding.md R83).
They take the place of a processor's instructions (00_scope.md R17). -/

namespace Sys2Proof

/-- The one operand a command can have: the table `T` of SCR_L and SCR_R, by its assembler name
(30_encoding.md R81, R87). TSEL = 3 selects none, so it has no constructor. -/
inductive TableSel where
  /-- TSEL 0: `le8(DKEY)`. -/
  | dkey
  /-- TSEL 1: `KT[0..7]`, half 0. -/
  | kt0
  /-- TSEL 2: `KT[8..15]`, half 1. -/
  | kt1
  deriving DecidableEq, Repr

/-- The twelve commands of the opcode map (30_encoding.md R83). -/
inductive Instr where
  /-- 0x0 NOP: no operation. -/
  | nop
  /-- 0x1 STD_ENC: StandardCipher encrypt. -/
  | stdEnc
  /-- 0x2 STD_DEC: StandardCipher decrypt. -/
  | stdDec
  /-- 0x3 DERIVE: KeyDerivation. -/
  | derive
  /-- 0x4 EXPAND: expand_key_table. -/
  | expand
  /-- 0x5 SCR_L: shift_left under the selected table. -/
  | scrL (t : TableSel)
  /-- 0x6 SCR_R: shift_right under the selected table. -/
  | scrR (t : TableSel)
  /-- 0x7 ENC_PAYLOAD: encrypt_payload. -/
  | encPayload
  /-- 0x8 DEC_PAYLOAD: decrypt_payload. -/
  | decPayload
  /-- 0x9 BUILD: build_payload. -/
  | build
  /-- 0xA DECODE: decode_payload. -/
  | decode
  /-- 0xB PULSE: encode_pulse_sequence. -/
  | pulse
  deriving DecidableEq, Repr

end Sys2Proof
end

