-- ==== Sys2Proof/Machine/State.lean ====
section
/-! DEFINITION. The whole state (10_state.md R20, 70_reset_and_hazards.md R273): the registers of the window, the key
table, the sequencer, the stream port, what the sink has accepted and the bus faults; beside them the two things the
outside world supplies, as plain data: the host's remaining accesses and the order in which the agents take turns. -/

namespace Sys2Proof.Machine

/-- STATUS.ERR (60_exceptions.md R220). Codes 4 to 7 are "never produced", so they have no constructor. -/
inductive ErrCode where
  /-- 0 NONE. -/
  | none
  /-- 1 INTEGRITY: the redundancy check of a decode failed. -/
  | integrity
  /-- 2 INVALID_BUTTON: BUILD refused its button byte. -/
  | invalidButton
  /-- 3 ILLEGAL_CMD: the word presented to CMD is not legal. -/
  | illegalCmd
  deriving DecidableEq, Repr

/-- Whether a command is running (10_state.md R37). -/
inductive Phase where
  | idle
  | busy
  deriving DecidableEq, Repr

/-- The sequencer state of 10_state.md R37, with the record list `L` of 70_reset_and_hazards.md R273.
`work`, `half0` and `half1` are the model's own: R37 names no place for the CipherState and the two expansion results
while a scramble command runs (assumption log 6). -/
structure Seq where
  phase : Phase
  /-- The opcode being run. -/
  op    : BitVec 4
  /-- Its TSEL field. -/
  tsel  : BitVec 2
  /-- Bit-steps taken in the current 528-step pass. -/
  r     : Fin 528
  /-- Which pass of a multi-pass command is running. -/
  pass  : Fin 3
  /-- The internal key copy, rotated one bit per round. -/
  kc    : DWord
  /-- The StandardCipher working block. -/
  blk   : Word
  /-- The first DERIVE pass's result during the second pass. -/
  acc   : Word
  /-- ScrambleCipher outer round. -/
  o     : Fin 66
  /-- ScrambleCipher inner step. -/
  i     : Fin 8
  /-- ScrambleCipher table index. -/
  p     : Fin 8
  /-- The current mix byte. -/
  mix   : Byte
  /-- The pulse record index. -/
  k     : Nat
  /-- `L = PulseSeq(PAYLOAD at acceptance)` (R273). -/
  recs  : List Record
  /-- MODEL's own: the CipherState of the running scramble pass. -/
  work  : CState
  /-- MODEL's own: the 0x20-seed result of the running expansion. -/
  half0 : CState
  /-- MODEL's own: the 0x60-seed result of the running expansion. -/
  half1 : CState
  deriving DecidableEq, Repr

/-- The stream-port outputs (10_state.md R40). -/
structure Port where
  valid : Bool
  level : Bool
  ticks : Word
  last  : Bool
  deriving DecidableEq, Repr

/-- One bus access as the ports carry it (20_memory.md R60): write enable, byte offset, byte enables, write data. -/
structure BusAccess where
  we    : Bool
  addr  : Byte
  be    : BitVec 4
  wdata : Word
  deriving DecidableEq, Repr

/-- What the host does next. -/
inductive HostAction where
  /-- One bus access. -/
  | bus (a : BusAccess)
  /-- The `WAIT` loop of 30_encoding.md R88. -/
  | wait
  /-- "wait for irq with CTRL.DONE_IE = 1" (20_memory.md R72). -/
  | waitIrq
  deriving DecidableEq, Repr

/-- What the bus answered to the host's latest access: `bus_err` and, for a read, `bus_rdata` (20_memory.md R60).
`bus_rdata` is valid only in the cycle of a read, so the other answers carry none. -/
inductive Reply where
  /-- No access yet. -/
  | none
  /-- A write, accepted by the bus (`bus_err` = 0); a dropped write is answered so too. -/
  | written
  /-- A read and its value. -/
  | data (v : Word)
  /-- `bus_err` = 1, for a write or for a read; a read returns 0x00000000 (R62, R63). -/
  | refused (we : Bool)
  deriving DecidableEq, Repr

/-- A fault of the host program (20_memory.md R62, R63). -/
inductive BusFault where
  | misaligned (off : Byte)
  | partialAccess (off : Byte)
  deriving DecidableEq, Repr

/-- Which agent moves in a step (70_reset_and_hazards.md R273), and R280's single clock cycle. -/
inductive Turn where
  /-- Step 1: the host's next bus access. -/
  | host
  /-- Step 2: Complete, the rest of the running command at once. -/
  | complete
  /-- One cycle of the running command's bit-serial schedule (R280); a PULSE sees `pls_ready` = 0 in it. -/
  | tick
  /-- Step 3: Transfer, an edge at which the sink is ready. -/
  | transfer
  /-- Step 4: an edge with `rst_n` = 0 (R260). -/
  | hardReset
  /-- An edge with `rst_n` = 0 at which the host presents its next access (R260: ignored, reads return 0). -/
  | hostInReset
  deriving DecidableEq, Repr

/-- The state of CHERUBINI-CORE. SERIAL, CNTBTN, DECRES and PAYLOAD2 hold their implemented bits only; the reserved bits
read as zero through the register map (Machine/Bus.lean). CMD holds no value (10_state.md R24), STATUS.BUSY is
`seq.phase` (R25) and irq is a function of the registers (R20). -/
structure State where
  block      : Word
  keyLo      : Word
  keyHi      : Word
  dkeyLo     : Word
  dkeyHi     : Word
  serial     : BitVec 28
  counter    : BitVec 16
  button     : Byte
  cstate     : Word
  decCounter : BitVec 16
  decButton  : Byte
  payload0   : Word
  payload1   : Word
  payload2   : Byte
  kt         : KeyTable
  /-- STATUS.DONE. -/
  doneFlag   : Bool
  /-- STATUS.ERR. -/
  err        : ErrCode
  /-- STATUS.WERR. -/
  werr       : Bool
  /-- STATUS.LASTOP. -/
  lastop     : BitVec 4
  /-- CTRL.DONE_IE. -/
  doneIe     : Bool
  seq        : Seq
  port       : Port
  /-- The output list O of transferred records (R273). -/
  out        : List Record
  /-- The fault set F, without repeats (R273; assumption log 17). -/
  faults     : List BusFault
  /-- The host's remaining accesses, in the order it issues them (R61). -/
  host       : List HostAction
  /-- The bus's answer to the host's latest access (assumption log 9). -/
  reply      : Reply
  /-- The order in which the agents move from here on (assumption log 5). -/
  turns      : List Turn
  /-- MODEL's own: how many free values have been drawn. -/
  draws      : Nat
  deriving DecidableEq, Repr

/-- Reasons a step could stop the machine: there are none. Every error of the block is a completion with a code
(60_exceptions.md R228), and a bus fault is recorded in `State.faults` while the machine goes on (R232). -/
inductive Fault where
  deriving DecidableEq, Repr

/-- Reasons an instruction has no meaning. -/
inductive Refusal where
  /-- Raised by an arm of `exec` whose instruction has no meaning yet; safe. No arm raises it in this model. -/
  | notModelled (mnemonic : String)
  deriving DecidableEq, Repr

/-- The answer of `exec` and `step`. -/
abbrev Result := Host.Outcome State Fault Refusal

/-- The sequencer at reset: Idle, every counter 0 (10_state.md R37, 70_reset_and_hazards.md R260). -/
def Seq.reset : Seq :=
  { phase := .idle, op := 0, tsel := 0, r := 0, pass := 0, kc := 0, blk := 0, acc := 0, o := 0, i := 0, p := 0, mix := 0,
    k := 0, recs := [], work := ⟨0, 0, 0, 0⟩, half0 := ⟨0, 0, 0, 0⟩, half1 := ⟨0, 0, 0, 0⟩ }

/-- The stream outputs at reset (10_state.md R40). -/
def Port.reset : Port := { valid := false, level := false, ticks := 0, last := false }

/-- The machine right after reset (70_reset_and_hazards.md R260; 10_state.md R23, R25, R26): all zero and Idle.
No host program is placed and no turn is scheduled (assumption log 4). -/
def State.reset : State :=
  { block := 0, keyLo := 0, keyHi := 0, dkeyLo := 0, dkeyHi := 0, serial := 0, counter := 0, button := 0, cstate := 0,
    decCounter := 0, decButton := 0, payload0 := 0, payload1 := 0, payload2 := 0, kt := Vector.replicate 16 0,
    doneFlag := false, err := .none, werr := false, lastop := 0, doneIe := false, seq := Seq.reset, port := Port.reset,
    out := [], faults := [], host := [], reply := .none, turns := [], draws := 0 }

end Sys2Proof.Machine
end

