-- ==== Sys2Proof/Machine/Flags.lean ====
section
/-! DEFINITION. STATUS, CTRL and the interrupt (10_state.md R25, R26, R38; 60_exceptions.md R220, R230). The block has no
arithmetic flag (R38). -/

namespace Sys2Proof.Machine

/-- The 3-bit code of STATUS.ERR (60_exceptions.md R220). -/
def ErrCode.code : ErrCode → BitVec 3
  | .none => 0
  | .integrity => 1
  | .invalidButton => 2
  | .illegalCmd => 3

/-- STATUS.BUSY: "1 exactly when phase = Busy" (10_state.md R37). -/
def State.busy (s : State) : Bool :=
  match s.seq.phase with
  | .idle => false
  | .busy => true

/-- STATUS as it reads: bit 0 BUSY, 1 DONE, 4:2 ERR, 5 WERR, 11:8 LASTOP, the rest reserved (10_state.md R25). -/
def State.statusWord (s : State) : Word :=
  (0 : BitVec 20) ++ s.lastop ++ (0 : BitVec 2) ++ BitVec.ofBool s.werr ++ s.err.code ++ BitVec.ofBool s.doneFlag ++
    BitVec.ofBool s.busy

/-- A write of STATUS clears DONE and WERR where the word holds 1; nothing else of it has an effect (R25). -/
def State.writeStatus (v : Word) (s : State) : State :=
  { s with doneFlag := s.doneFlag && !v.getLsbD 1, werr := s.werr && !v.getLsbD 5 }

/-- CTRL as it reads: DONE_IE in bit 0; SRST and the reserved bits read 0 (10_state.md R26). -/
def State.ctrlWord (s : State) : Word := (0 : BitVec 31) ++ BitVec.ofBool s.doneIe

/-- The interrupt output, `irq = STATUS.DONE ∧ CTRL.DONE_IE` (60_exceptions.md R230). -/
def State.irq (s : State) : Bool := s.doneFlag && s.doneIe

end Sys2Proof.Machine
end

