-- ==== Sys2Proof/WellFormed.lean ====
section
/-! DEFINITION. The checks of the spec on what comes from outside: a command word is legal (30_encoding.md R84), a bus
access is aligned and full-word (20_memory.md R62, R63), and a configuration meets the constraints the spec puts on one
(00_scope.md R8, 41_scramble_cipher.md R134). `Instr` itself needs no check: its one operand is typed. -/

namespace Sys2Proof

/-- OP, bits 3:0 of a command word (30_encoding.md R80). -/
abbrev opField (w : Word) : BitVec 4 := w.extractLsb' 0 4

/-- TSEL, bits 5:4 (30_encoding.md R80). -/
abbrev tselField (w : Word) : BitVec 2 := w.extractLsb' 4 2

/-- RSVD, bits 31:6 (30_encoding.md R80). -/
abbrev rsvdField (w : Word) : BitVec 26 := w.extractLsb' 6 26

/-- `legal(w)`, as 30_encoding.md R84 writes it. -/
def legal (w : Word) : Bool :=
  rsvdField w == 0 && (opField w).toNat ≤ 0xB &&
    (if opField w = 0x5 ∨ opField w = 0x6 then tselField w != 3 else tselField w == 0)

/-- `bus_addr[1:0] = 0` (20_memory.md R62). -/
def aligned (off : Byte) : Bool := off.extractLsb' 0 2 == 0

/-- `bus_be = 0b1111` (20_memory.md R63). -/
def fullWord (be : BitVec 4) : Bool := be == 0b1111

/-- Position `8j + b` of a tap in the 32-bit word (41_scramble_cipher.md R134). -/
def Tap.pos (t : Tap) : Nat := 8 * t.byte.val + t.bit.val

/-- The nonlinear taps of one direction, in the order of the table of R131. -/
def ScrTaps.taps (t : ScrTaps) : List Tap := [t.hi, t.lo, t.r4, t.r2, t.r1]

/-- The mask table entries, index 0 first. -/
def ScrTaps.masks (t : ScrTaps) : List Byte := [t.mask[0], t.mask[1], t.mask[2], t.mask[3]]

/-- 41_scramble_cipher.md R134, constraint 1: each left tap is at the right tap's position minus 1. -/
def tapsOneBelow (l r : ScrTaps) : Bool := l.taps.map (fun t => t.pos + 1) == r.taps.map Tap.pos

/-- R134, constraint 2: no right tap is at position 0. -/
def rightTapsAvoidZero (r : ScrTaps) : Bool := r.taps.all fun t => t.pos != 0

/-- R134, constraint 3: the right feedback bit is bit 0 and its XOR includes S0. -/
def rightLinearAtZero (r : ScrTaps) : Bool := r.fbit == 0 && (r.fa == 0 || r.fb == 0)

/-- R134, constraint 4: the left feedback bit is bit 7 and its XOR includes S3. -/
def leftLinearAtTop (l : ScrTaps) : Bool := l.fbit == 7 && (l.fa == 3 || l.fb == 3)

/-- The XOR byte of a direction other than the given one. -/
def ScrTaps.otherByte (t : ScrTaps) (j : Fin 4) : Fin 4 := if t.fa = j then t.fb else t.fa

/-- R134, constraint 5: bit 7 of the left direction's other XOR byte is one position below bit 0 of the right's. -/
def otherBytesPair (l r : ScrTaps) : Bool := 8 * (l.otherByte 3).val + 7 + 1 == 8 * (r.otherByte 0).val

/-- R134, constraint 6: `MASK_L[j] = bitrev8(MASK_R[j])` for each j. -/
def masksReversed (l r : ScrTaps) : Bool := l.masks == r.masks.map BitVec.reverse

/-- Constraints 1 to 6 of 41_scramble_cipher.md R134 (constraint 7 is about the schedule, which no tap changes). -/
def ScrTaps.invertible (l r : ScrTaps) : Bool :=
  tapsOneBelow l r && rightTapsAvoidZero r && rightLinearAtZero r && leftLinearAtTop l && otherBytesPair l r &&
    masksReversed l r

/-- A configuration whose tap record "must satisfy rule R134's constraints" (41_scramble_cipher.md R131).
`PAYLOAD_BITS ≤ 72` and the key-table halves 0 and 1 are bounds of the fields' types (00_scope.md R8). -/
def Cfg.wf (c : Cfg) : Bool := c.scrLeft.invertible c.scrRight

end Sys2Proof
end

