-- ==== Sys2Proof/Decode.lean ====
section
/-! DEFINITION. The command decoder, total on the 2^32 words and rejecting by name (30_encoding.md R80 to R86), and the
encoder written from the same tables. -/

namespace Sys2Proof

/-- Why a word is illegal (30_encoding.md R84, R85). -/
inductive DecodeError where
  /-- RSVD (bits 31:6) is not 0. -/
  | reservedBits
  /-- OP is 0xC to 0xF. -/
  | reservedOpcode
  /-- TSEL is 3, or not 0 outside SCR_L and SCR_R. -/
  | forbiddenTable
  deriving DecidableEq, Repr

/-- The table TSEL selects (30_encoding.md R81); 3 is reserved. -/
def TableSel.ofBits (b : BitVec 2) : Option TableSel :=
  match b.toNat with
  | 0 => some .dkey
  | 1 => some .kt0
  | 2 => some .kt1
  | _ => none

/-- TSEL of a table (30_encoding.md R81). -/
def TableSel.bits : TableSel → BitVec 2
  | .dkey => 0
  | .kt0 => 1
  | .kt1 => 2

/-- A command without an operand: TSEL must be 0 (30_encoding.md R80). -/
def decodePlain (i : Instr) (tsel : BitVec 2) : Except DecodeError Instr :=
  if tsel = 0 then .ok i else .error .forbiddenTable

/-- SCR_L and SCR_R: TSEL must not be 3 (30_encoding.md R81). -/
def decodeTable (f : TableSel → Instr) (tsel : BitVec 2) : Except DecodeError Instr :=
  match TableSel.ofBits tsel with
  | some t => .ok (f t)
  | none => .error .forbiddenTable

/-- The opcode map of 30_encoding.md R83. -/
def decodeOp (op : BitVec 4) (tsel : BitVec 2) : Except DecodeError Instr :=
  match op.toNat with
  | 0x0 => decodePlain .nop tsel
  | 0x1 => decodePlain .stdEnc tsel
  | 0x2 => decodePlain .stdDec tsel
  | 0x3 => decodePlain .derive tsel
  | 0x4 => decodePlain .expand tsel
  | 0x5 => decodeTable .scrL tsel
  | 0x6 => decodeTable .scrR tsel
  | 0x7 => decodePlain .encPayload tsel
  | 0x8 => decodePlain .decPayload tsel
  | 0x9 => decodePlain .build tsel
  | 0xA => decodePlain .decode tsel
  | 0xB => decodePlain .pulse tsel
  | _ => .error .reservedOpcode

/-- The command decoder (30_encoding.md R84: "Decoding is total"). -/
def decodeWord (w : Word) : Except DecodeError Instr :=
  if rsvdField w = 0 then decodeOp (opField w) (tselField w) else .error .reservedBits

/-- OP of a command (30_encoding.md R83). -/
def opcodeOf : Instr → BitVec 4
  | .nop => 0x0
  | .stdEnc => 0x1
  | .stdDec => 0x2
  | .derive => 0x3
  | .expand => 0x4
  | .scrL _ => 0x5
  | .scrR _ => 0x6
  | .encPayload => 0x7
  | .decPayload => 0x8
  | .build => 0x9
  | .decode => 0xA
  | .pulse => 0xB

/-- TSEL of a command (30_encoding.md R81). -/
def tselOf : Instr → BitVec 2
  | .scrL t => t.bits
  | .scrR t => t.bits
  | .nop => 0
  | .stdEnc => 0
  | .stdDec => 0
  | .derive => 0
  | .expand => 0
  | .encPayload => 0
  | .decPayload => 0
  | .build => 0
  | .decode => 0
  | .pulse => 0

/-- The command word: RSVD, TSEL and OP in their places (30_encoding.md R80). -/
def commandWord (op : BitVec 4) (tsel : BitVec 2) : Word := (0 : BitVec 26) ++ tsel ++ op

/-- The word of a command (30_encoding.md R86). -/
def encode (i : Instr) : Word := commandWord (opcodeOf i) (tselOf i)

/-- The command that this decoder reads from a table row's word. A command is ONE 32-bit word (30_encoding.md R80), so
the bits above `nbits` are 0 and no second word follows. -/
def decodeTableWord (nbits w : Nat) : Option Instr :=
  match decodeWord (BitVec.ofNat 32 (w % 2 ^ nbits)) with
  | .ok i => some i
  | .error _ => none

end Sys2Proof
end

