-- ==== Sys2Proof/Machine/Bytes.lean ====
section
/-! DEFINITION. Byte order and rotations (00_scope.md R11, R12): the block is little-endian throughout (20_memory.md R68). -/

namespace Sys2Proof.Machine

/-- Byte `i` of a u32: bits `8i+7:8i`. -/
def byteOf (w : Word) (i : Nat) : Byte := w.extractLsb' (8 * i) 8

/-- `le4(x)` (R12). -/
def le4 (w : Word) : CState := ⟨byteOf w 0, byteOf w 1, byteOf w 2, byteOf w 3⟩

/-- `[b0, b1, b2, b3]` as a u32, b0 least significant (R12). -/
def wordOfBytes (b0 b1 b2 b3 : Byte) : Word := b3 ++ b2 ++ b1 ++ b0

/-- `unle4(S)` (R12). -/
def unle4 (S : CState) : Word := wordOfBytes S.s0 S.s1 S.s2 S.s3

/-- Byte `i` of a u64: bits `8i+7:8i`. -/
def byteOf64 (k : DWord) (i : Nat) : Byte := k.extractLsb' (8 * i) 8

/-- `le8(k)` (R12). -/
def le8 (k : DWord) : Table :=
  #v[byteOf64 k 0, byteOf64 k 1, byteOf64 k 2, byteOf64 k 3, byteOf64 k 4, byteOf64 k 5, byteOf64 k 6, byteOf64 k 7]

/-- `unle8`, the inverse of `le8` (R12). -/
def unle8 (T : Table) : DWord := T[7] ++ T[6] ++ T[5] ++ T[4] ++ T[3] ++ T[2] ++ T[1] ++ T[0]

/-- `rotl8(v, n)` (R11). -/
def rotl8 (v : Byte) (n : Nat) : Byte := (v <<< n) ||| (v >>> (8 - n))

/-- `rotr8(v, n)` (R11). -/
def rotr8 (v : Byte) (n : Nat) : Byte := (v >>> n) ||| (v <<< (8 - n))

/-- `rotl64(k)` (R11). -/
def rotl64 (k : DWord) : DWord := (k <<< 1) ||| (k >>> 63)

/-- `rotr64(k)` (R11). -/
def rotr64 (k : DWord) : DWord := (k >>> 1) ||| (k <<< 63)

/-- `f` applied `n` times: the `for` loops of the ciphers (R14). -/
def times {α : Type} (f : α → α) : Nat → α → α
  | 0, x => x
  | n + 1, x => f (times f n x)

end Sys2Proof.Machine
end

