-- ==== Sys2Proof/Machine/Operands.lean ====
section
/-! DEFINITION. The operand forms of the commands: every operand is a register named by the opcode, but for the table that
TSEL selects (30_encoding.md R81). -/

namespace Sys2Proof.Machine

/-- KEY = KEY_HI:KEY_LO (10_state.md R28). -/
def State.key (s : State) : DWord := s.keyHi ++ s.keyLo

/-- DKEY = DKEY_HI:DKEY_LO (10_state.md R29). -/
def State.dkey (s : State) : DWord := s.dkeyHi ++ s.dkeyLo

/-- The three serial bytes `ser0, ser1, ser2`: bits 27:24 are in none (10_state.md R30). -/
structure SerialBytes where
  ser0 : Byte
  ser1 : Byte
  ser2 : Byte
  deriving DecidableEq, Repr

/-- "3 little-endian bytes" of a u28 (10_state.md R30). -/
def serialBytes (serial : BitVec 28) : SerialBytes :=
  ⟨serial.extractLsb' 0 8, serial.extractLsb' 8 8, serial.extractLsb' 16 8⟩

/-- `KT[8h..8h+7]`, half `h` of a key table (10_state.md R35). -/
def ktHalf (kt : KeyTable) (h : Fin 2) : Table :=
  match h with
  | 0 => #v[kt[0], kt[1], kt[2], kt[3], kt[4], kt[5], kt[6], kt[7]]
  | 1 => #v[kt[8], kt[9], kt[10], kt[11], kt[12], kt[13], kt[14], kt[15]]

/-- The table `T` of SCR_L and SCR_R (30_encoding.md R81). KT is read as it was last written (70_reset_and_hazards.md
R276). -/
def State.tableOf (s : State) : TableSel → Table
  | .dkey => le8 s.dkey
  | .kt0 => ktHalf s.kt 0
  | .kt1 => ktHalf s.kt 1

/-- KTj, key-table bytes `4j..4j+3` with byte `4j+i` at bits `8i+7:8i` (10_state.md R35). -/
def ktWord (kt : KeyTable) (j : Fin 4) : Word :=
  match j with
  | 0 => wordOfBytes kt[0] kt[1] kt[2] kt[3]
  | 1 => wordOfBytes kt[4] kt[5] kt[6] kt[7]
  | 2 => wordOfBytes kt[8] kt[9] kt[10] kt[11]
  | 3 => wordOfBytes kt[12] kt[13] kt[14] kt[15]

/-- The payload bytes `P0..P8` (10_state.md R34). -/
def State.payload (s : State) : PayloadBytes :=
  #v[byteOf s.payload0 0, byteOf s.payload0 1, byteOf s.payload0 2, byteOf s.payload0 3,
     byteOf s.payload1 0, byteOf s.payload1 1, byteOf s.payload1 2, byteOf s.payload1 3, s.payload2]

end Sys2Proof.Machine
end

