-- ==== Sys2Proof/Machine/Params.lean ====
section
/-! DEFINITION. The values of `Cfg` for this hardware: the defaults, which alone are normative (00_scope.md R8). -/

namespace Sys2Proof.Machine

/-- ShiftLeft's part of the default `SCR_TAPS` (41_scramble_cipher.md R131). -/
def scrLeftDefault : ScrTaps :=
  { mask := #v[0x74, 0x2E, 0x3A, 0x5C], hi := ⟨3, 6⟩, lo := ⟨3, 1⟩, r4 := ⟨2, 3⟩, r2 := ⟨1, 0⟩, r1 := ⟨0, 0⟩,
    fa := 1, fb := 3, fbit := 7 }

/-- ShiftRight's part of the default `SCR_TAPS` (41_scramble_cipher.md R131). -/
def scrRightDefault : ScrTaps :=
  { mask := #v[0x2E, 0x74, 0x5C, 0x3A], hi := ⟨3, 7⟩, lo := ⟨3, 2⟩, r4 := ⟨2, 4⟩, r2 := ⟨1, 1⟩, r1 := ⟨0, 1⟩,
    fa := 0, fb := 2, fbit := 0 }

/-- The configuration of CHERUBINI-CORE: every field of 00_scope.md R8 at its default, and `BASE_ADDR` OPEN
(assumption logs 3, 15). -/
def cfg : Cfg :=
  { stdTapReading := .shiftMask
    scrLeft := scrLeftDefault
    scrRight := scrRightDefault
    ktHalfL := 0
    ktHalfR := 1
    ktFillUpper := .copy
    serNibbleInB7 := false
    buttonCheck := true
    validButtons := [0x50, 0xA0, 0x10]
    preambleTicks := 46
    headerGapTicks := 20
    payloadBits := 66
    shortTicks := 2
    longTicks := 4
    tailGapTicks := 75
    tickUs := 200
    baseAddr := Config.baseAddr }

end Sys2Proof.Machine
end

