-- ==== Sys2Proof/Machine/Scramble.lean ====
section
/-! DEFINITION. The functions of the ScrambleCipher (41_scramble_cipher.md R130 to R144). They are defined on their own,
not through the StandardCipher (R135). -/

namespace Sys2Proof.Machine

/-- The bit a tap names (R131). -/
def tapBit (S : CState) (t : Tap) : Bool := (S.get t.byte).getLsbD t.bit.val

/-- The mask table entry at index `2*hi + lo` (R131). -/
def maskEntry (mask : Vector Byte 4) (hi lo : Bool) : Byte :=
  match hi, lo with
  | false, false => mask[0]
  | false, true => mask[1]
  | true, false => mask[2]
  | true, true => mask[3]

/-- The mask byte of one inner step: the table entry after the three conditional rotations by 4, 2 and 1. -/
def maskByte (t : ScrTaps) (rot : Byte → Nat → Byte) (S : CState) : Byte :=
  let m := maskEntry t.mask (tapBit S t.hi) (tapBit S t.lo)
  let m := if tapBit S t.r4 then rot m 4 else m
  let m := if tapBit S t.r2 then rot m 2 else m
  if tapBit S t.r1 then rot m 1 else m

/-- The feedback bit: bit `fbit` of mask, the two state bytes and the mix byte XORed (R131). -/
def feedbackBit (t : ScrTaps) (m : Byte) (S : CState) (mix : Byte) : Bool :=
  (m ^^^ S.get t.fa ^^^ S.get t.fb ^^^ mix).getLsbD t.fbit.val

/-- A single bit as a byte. -/
def bitByte (b : Bool) : Byte := (BitVec.ofBool b).setWidth 8

/-- The synchronized left shift of the four registers: `f` enters S0's LSB, the MSBs carry upward (R132). -/
def shiftUp (S : CState) (f : Bool) : CState :=
  { s0 := (S.s0 <<< 1) ||| bitByte f
    s1 := (S.s1 <<< 1) ||| bitByte (S.s0.getLsbD 7)
    s2 := (S.s2 <<< 1) ||| bitByte (S.s1.getLsbD 7)
    s3 := (S.s3 <<< 1) ||| bitByte (S.s2.getLsbD 7) }

/-- The synchronized right shift: `f` enters S3's MSB, the LSBs carry downward (R133). -/
def shiftDown (S : CState) (f : Bool) : CState :=
  { s0 := (S.s0 >>> 1) ||| (bitByte (S.s1.getLsbD 0) <<< 7)
    s1 := (S.s1 >>> 1) ||| (bitByte (S.s2.getLsbD 0) <<< 7)
    s2 := (S.s2 >>> 1) ||| (bitByte (S.s3.getLsbD 0) <<< 7)
    s3 := (S.s3 >>> 1) ||| (bitByte f <<< 7) }

/-- One inner step of ShiftLeft on (state, mix byte); every read sees the state before the step (R132). -/
def leftStep (t : ScrTaps) (x : CState × Byte) : CState × Byte :=
  (shiftUp x.1 (feedbackBit t (maskByte t rotl8 x.1) x.1 x.2), x.2 <<< 1)

/-- One inner step of ShiftRight (R133). -/
def rightStep (t : ScrTaps) (x : CState × Byte) : CState × Byte :=
  (shiftDown x.1 (feedbackBit t (maskByte t rotr8 x.1) x.1 x.2), x.2 >>> 1)

/-- One outer round of ShiftLeft: `mix <- T[p]; p <- (p - 1) mod 8`, then 8 inner steps (R132). -/
def leftOuter (t : ScrTaps) (T : Table) (x : CState × Fin 8) : CState × Fin 8 :=
  ((times (leftStep t) 8 (x.1, T[x.2])).1, x.2 - 1)

/-- One outer round of ShiftRight: `mix <- T[p]; p <- (p + 1) mod 8`, then 8 inner steps (R133). -/
def rightOuter (t : ScrTaps) (T : Table) (x : CState × Fin 8) : CState × Fin 8 :=
  ((times (rightStep t) 8 (x.1, T[x.2])).1, x.2 + 1)

/-- `ShiftLeft(S, T)`: 66 outer rounds, the index starts at 1 (R132). -/
def shiftLeft (c : Cfg) (S : CState) (T : Table) : CState := (times (leftOuter c.scrLeft T) 66 (S, 1)).1

/-- `ShiftRight(S, T)`: 66 outer rounds, the index starts at 0 (R133). -/
def shiftRight (c : Cfg) (S : CState) (T : Table) : CState := (times (rightOuter c.scrRight T) 66 (S, 0)).1

/-- The seed states of the expansion: the serial bytes and 0x20 or 0x60 (R136). -/
def expandSeed (ser : SerialBytes) (b : Byte) : CState := ⟨ser.ser0, ser.ser1, ser.ser2, b⟩

/-- `KT` from the two expansion results: `lower ++ upper` (R136). -/
def fillKT (c : Cfg) (a b : CState) : KeyTable :=
  match c.ktFillUpper with
  | .copy => #v[a.s0, a.s1, a.s2, a.s3, b.s0, b.s1, b.s2, b.s3, a.s0, a.s1, a.s2, a.s3, b.s0, b.s1, b.s2, b.s3]
  | .zero => #v[a.s0, a.s1, a.s2, a.s3, b.s0, b.s1, b.s2, b.s3, 0, 0, 0, 0, 0, 0, 0, 0]

/-- `ExpandKT(ser, DK)` (R136). -/
def expandKT (c : Cfg) (ser : SerialBytes) (DK : Table) : KeyTable :=
  fillKT c (shiftLeft c (expandSeed ser 0x20) DK) (shiftLeft c (expandSeed ser 0x60) DK)

/-- `PtSeed(ser0, counter, button)` (R138). -/
def ptSeed (ser0 : Byte) (counter : BitVec 16) (button : Byte) : CState :=
  ⟨counter.extractLsb' 0 8, counter.extractLsb' 8 8, ser0 <<< 6, (button &&& 0xF0) ||| ((ser0 &&& 0x0C) >>> 2)⟩

/-- `EncPayload(ser, counter, button, DK)`: the key table and the ciphertext bytes (R139). -/
def encPayload (c : Cfg) (ser : SerialBytes) (counter : BitVec 16) (button : Byte) (DK : Table) : KeyTable × CState :=
  let kt := expandKT c ser DK
  (kt, shiftRight c (ptSeed ser.ser0 counter button) (ktHalf kt c.ktHalfR))

/-- What a decryption gives: KT, the decrypted bytes, whether the check passed, the counter and the button (R141). -/
structure Decoded where
  kt      : KeyTable
  plain   : CState
  ok      : Bool
  counter : BitVec 16
  button  : Byte
  deriving DecidableEq, Repr

/-- The 10-bit integrity check: all of D2 and bits 1:0 of D3 (R141, R142). -/
def integrityOk (ser0 : Byte) (D : CState) : Bool :=
  D.s2 == ser0 <<< 6 && (D.s3 &&& 0x03) == ((ser0 >>> 2) &&& 0x03)

/-- The outputs of `DecPayload` from KT and D (R141). -/
def decodedOf (ser0 : Byte) (kt : KeyTable) (D : CState) : Decoded :=
  { kt := kt, plain := D, ok := integrityOk ser0 D, counter := D.s1 ++ D.s0, button := D.s3 &&& 0xF0 }

/-- `DecPayload(ser, c, DK)` (R141). -/
def decPayload (c : Cfg) (ser : SerialBytes) (cipher : Word) (DK : Table) : Decoded :=
  let kt := expandKT c ser DK
  decodedOf ser.ser0 kt (shiftLeft c (le4 cipher) (ktHalf kt c.ktHalfL))

end Sys2Proof.Machine
end

