-- ==== Sys2Proof/Machine/Payload.lean ====
section
/-! DEFINITION. The functions of the PayloadCodec (42_payload_codec.md R170 to R174). -/

namespace Sys2Proof.Machine

/-- Payload byte 7 (R171). -/
def payloadByte7 (c : Cfg) (serial : BitVec 28) (button : Byte) : Byte :=
  if c.serNibbleInB7 then (button &&& 0xF0) ||| (serial.extractLsb' 24 4).setWidth 8 else button

/-- `C ++ ser ++ [B7] ++ [0x00]` (R170). -/
def packPayload (c : Cfg) (serial : BitVec 28) (button : Byte) (C : CState) : PayloadBytes :=
  let ser := serialBytes serial
  #v[C.s0, C.s1, C.s2, C.s3, ser.ser0, ser.ser1, ser.ser2, payloadByte7 c serial button, 0x00]

/-- `BuildPayload(serial, counter, button, DK)`: KT, the ciphertext bytes and the payload (R170). -/
def buildPayload (c : Cfg) (serial : BitVec 28) (counter : BitVec 16) (button : Byte) (DK : Table) :
    KeyTable × CState × PayloadBytes :=
  let e := encPayload c (serialBytes serial) counter button DK
  (e.1, e.2, packPayload c serial button e.2)

/-- `DecodePayload(serial, P, DK)`: P4..P8 are not read (R173). -/
def decodePayload (c : Cfg) (serial : BitVec 28) (P : PayloadBytes) (DK : Table) : Decoded :=
  decPayload c (serialBytes serial) (wordOfBytes P[0] P[1] P[2] P[3]) DK

/-- `Cfg.BUTTON_CHECK ∧ BUTTON ∉ VALID_BUTTONS` (R174). -/
def buttonRefused (c : Cfg) (button : Byte) : Bool := c.buttonCheck && !c.validButtons.contains button

end Sys2Proof.Machine
end

