-- ==== Sys2Proof/Machine/Pulse.lean ====
section
/-! DEFINITION. `PulseSeq` (43_pulse_encoder.md R190). -/

namespace Sys2Proof.Machine

/-- A record of a configured duration. Durations are u32 (R190); a configured value beyond a u32 wraps, which the spec
does not state (assumption log 12). -/
def pulse (level : Bool) (ticks : Nat) : Record := ⟨level, BitVec.ofNat 32 ticks⟩

/-- Preamble record `k`: `(k mod 2, 1)`. -/
def preambleRecord (k : Nat) : Record := pulse (k % 2 == 1) 1

/-- Payload bit `n`: `P[n div 8][n mod 8]`, LSB first and P0 first. -/
def payloadBit (P : PayloadBytes) (n : Nat) : Bool := (P.toList.getD (n / 8) 0).getLsbD (n % 8)

/-- The two records of one payload bit. -/
def bitPair (c : Cfg) (b : Bool) : List Record :=
  if b then [pulse true c.shortTicks, pulse false c.longTicks] else [pulse true c.longTicks, pulse false c.shortTicks]

/-- `PulseSeq(P)`: preamble, header gap, payload pairs, tail gap; no two records are merged (R190, R194). -/
def pulseSeq (c : Cfg) (P : PayloadBytes) : List Record :=
  (List.range c.preambleTicks).map preambleRecord ++ [pulse false c.headerGapTicks] ++
    (List.range c.payloadBits.val).flatMap (fun n => bitPair c (payloadBit P n)) ++ [pulse false c.tailGapTicks]

end Sys2Proof.Machine
end

