-- ==== Sys2Proof/Machine/StdCipher.lean ====
section
/-! DEFINITION. The functions of the StandardCipher and of KeyDerivation (40_standard_cipher.md R100 to R106). -/

namespace Sys2Proof.Machine

/-- Five tap positions, the first one the least significant bit of the index (R101). -/
structure StdTaps where
  t0 : Nat
  t1 : Nat
  t2 : Nat
  t3 : Nat
  t4 : Nat
  deriving DecidableEq, Repr

/-- The encrypt taps TE of each reading (R101). -/
def encTaps : TapReading → StdTaps
  | .shiftMask => ⟨1, 9, 20, 26, 31⟩
  | .literal => ⟨1, 8, 18, 23, 27⟩

/-- The decrypt taps TD of each reading (R101). -/
def decTaps : TapReading → StdTaps
  | .shiftMask => ⟨0, 8, 19, 25, 30⟩
  | .literal => ⟨0, 7, 17, 22, 26⟩

/-- `NLF = 0x3A5C742E` (R100). -/
def nlfTable : Word := 0x3A5C742E

/-- `nlf(idx) = NLF[idx]` (R100). -/
def nlf (idx : BitVec 5) : Bool := nlfTable.getLsbD idx.toNat

/-- `idx(b, t)` (R101). -/
def tapIndex (b : Word) (t : StdTaps) : BitVec 5 :=
  BitVec.ofBool (b.getLsbD t.t4) ++ BitVec.ofBool (b.getLsbD t.t3) ++ BitVec.ofBool (b.getLsbD t.t2) ++
    BitVec.ofBool (b.getLsbD t.t1) ++ BitVec.ofBool (b.getLsbD t.t0)

/-- The feedback of an encrypt round (R102; the block bits 0 and 16 are decision D4). -/
def encFeedback (t : StdTaps) (b : Word) (kc : DWord) : Bool :=
  nlf (tapIndex b t) ^^ b.getLsbD 0 ^^ b.getLsbD 16 ^^ kc.getLsbD 0

/-- One encrypt round: the block shifts right, the key copy rotates right (R102). -/
def encRound (t : StdTaps) (x : Word × DWord) : Word × DWord :=
  ((x.1 >>> 1) ||| ((BitVec.ofBool (encFeedback t x.1 x.2)).setWidth 32 <<< 31), rotr64 x.2)

/-- The feedback of a decrypt round (R103). -/
def decFeedback (t : StdTaps) (b : Word) (kc : DWord) : Bool :=
  nlf (tapIndex b t) ^^ b.getLsbD 31 ^^ b.getLsbD 15 ^^ kc.getLsbD 15

/-- One decrypt round: the block shifts left, the key copy rotates left (R103). -/
def decRound (t : StdTaps) (x : Word × DWord) : Word × DWord :=
  ((x.1 <<< 1) ||| (BitVec.ofBool (decFeedback t x.1 x.2)).setWidth 32, rotl64 x.2)

/-- `StdEnc(block, key)`: 528 rounds (R102). -/
def stdEnc (c : Cfg) (block : Word) (key : DWord) : Word :=
  (times (encRound (encTaps c.stdTapReading)) 528 (block, key)).1

/-- `StdDec(block, key)`: 528 rounds (R103). -/
def stdDec (c : Cfg) (block : Word) (key : DWord) : Word :=
  (times (decRound (decTaps c.stdTapReading)) 528 (block, key)).1

/-- The seed of the high half: `zext_32(serial) | 0x60000000` (R106). -/
def deriveSeedHi (serial : BitVec 28) : Word := serial.setWidth 32 ||| 0x60000000

/-- The seed of the low half: `zext_32(serial) | 0x20000000` (R106). -/
def deriveSeedLo (serial : BitVec 28) : Word := serial.setWidth 32 ||| 0x20000000

/-- `DeriveKey(serial, mk)` (R106). -/
def deriveKey (c : Cfg) (serial : BitVec 28) (mk : DWord) : DWord :=
  stdDec c (deriveSeedHi serial) mk ++ stdDec c (deriveSeedLo serial) mk

end Sys2Proof.Machine
end

