-- ==== Sys2Proof/Machine/Ops.lean ====
section
/-! DEFINITION. The operations the commands share: presenting a word, completing with a code, committing each command's
results, resetting the block, recording a bus fault (60_exceptions.md R225, R226; 70_reset_and_hazards.md R260, R262,
R271). An error is a completion with a code: nothing is saved and no control is transferred (R228). -/

namespace Sys2Proof.Machine

/-- What every word presented while BUSY = 0 does first: `DONE <- 0; ERR <- 0; LASTOP <- w[3:0]` (R225). -/
def presented (op : BitVec 4) (s : State) : State := { s with doneFlag := false, err := .none, lastop := op }

/-- `complete(code)`: `phase <- Idle; DONE <- 1; ERR <- code` (R226). WERR, CTRL and LASTOP are not touched. -/
def complete (code : ErrCode) (s : State) : State :=
  { s with seq := { s.seq with phase := .idle }, doneFlag := true, err := code }

/-- The running command, read back from the latched OP and TSEL (10_state.md R37). -/
def State.running (s : State) : Option Instr :=
  match decodeWord (commandWord s.seq.op s.seq.tsel) with
  | .ok i => some i
  | .error _ => none

/-- The stream outputs while record `k` is offered; `pls_last` exactly on the last record (43_pulse_encoder.md R192). -/
def offered (recs : List Record) (k : Nat) : Port :=
  match recs[k]? with
  | some r => { valid := true, level := r.level, ticks := r.ticks, last := k + 1 == recs.length }
  | none => Port.reset

/-- The stream outputs once a PULSE has completed: `pls_valid = 0` (43_pulse_encoder.md R192), the other three free
(assumption log 2). -/
def freePort (recs : List Record) : Port :=
  { valid := false, level := Config.freeLevel recs, ticks := Config.freeTicks recs, last := Config.freeLast recs }

/-- STD_ENC and STD_DEC commit BLOCK (40_standard_cipher.md R110, R111). -/
def commitBlock (v : Word) (s : State) : State := complete .none { s with block := v }

/-- DERIVE commits both halves of DKEY (40_standard_cipher.md R112). -/
def commitDkey (k : DWord) (s : State) : State :=
  complete .none { s with dkeyLo := k.extractLsb' 0 32, dkeyHi := k.extractLsb' 32 32 }

/-- EXPAND commits KT and `STATE <- unle4(KT[4..7])` (41_scramble_cipher.md R150). -/
def commitExpand (kt : KeyTable) (s : State) : State := complete .none { s with kt := kt, cstate := ktWord kt 1 }

/-- SCR_L and SCR_R commit STATE (41_scramble_cipher.md R151, R152). -/
def commitScramble (S : CState) (s : State) : State := complete .none { s with cstate := unle4 S }

/-- ENC_PAYLOAD commits KT, STATE and BLOCK (41_scramble_cipher.md R153). -/
def commitEncPayload (kt : KeyTable) (C : CState) (s : State) : State :=
  complete .none { s with kt := kt, cstate := unle4 C, block := unle4 C }

/-- DEC_PAYLOAD and DECODE commit KT and STATE, and DECRES if the check passed; else INTEGRITY with DECRES unchanged
(41_scramble_cipher.md R154, 60_exceptions.md R223). -/
def commitDecoded (d : Decoded) (s : State) : State :=
  let s1 := { s with kt := d.kt, cstate := unle4 d.plain }
  if d.ok then complete .none { s1 with decCounter := d.counter, decButton := d.button } else complete .integrity s1

/-- BUILD commits KT, STATE and the nine payload bytes (42_payload_codec.md R175). -/
def commitBuild (kt : KeyTable) (C : CState) (P : PayloadBytes) (s : State) : State :=
  complete .none
    { s with
      kt := kt, cstate := unle4 C
      payload0 := wordOfBytes P[0] P[1] P[2] P[3], payload1 := wordOfBytes P[4] P[5] P[6] P[7], payload2 := P[8] }

/-- The last record's transfer completes PULSE (43_pulse_encoder.md R195). -/
def commitPulse (s : State) : State :=
  { complete .none s with port := freePort s.seq.recs }

/-- Transfer: `O <- O ++ [L[k]]; k <- k + 1`, and the last one completes (70_reset_and_hazards.md R273). Where no record
is left none is offered and nothing moves. -/
def transfer (s : State) : State :=
  match s.seq.recs[s.seq.k]? with
  | none => s
  | some r =>
    let s1 := { s with out := s.out ++ [r], seq := { s.seq with k := s.seq.k + 1 } }
    if s.seq.k + 1 = s.seq.recs.length then commitPulse s1
    else { s1 with port := offered s.seq.recs (s.seq.k + 1) }

/-- Reset, hard or soft: every piece of the block's state takes its reset value (70_reset_and_hazards.md R260, R262). What
the sink accepted, the recorded bus faults and the outside world's plans are not the block's, and stand (assumption log
11). -/
def resetBlock (s : State) : State :=
  { State.reset with
    out := s.out, faults := s.faults, host := s.host, reply := s.reply, turns := s.turns, draws := s.draws }

/-- "recorded and never cleared" (20_memory.md R62): the fault joins the set F. -/
def recordFault (f : BusFault) (s : State) : State :=
  { s with faults := if f ∈ s.faults then s.faults else s.faults ++ [f] }

end Sys2Proof.Machine
end

