-- ==== Sys2Proof/Machine/Bus.lean ====
section
/-! DEFINITION. The register window (10_state.md R23 to R36, 20_memory.md R61 to R66) and what a running command does to it
(70_reset_and_hazards.md R270 to R272). The write of CMD is in Machine/Turns.lean, after the dispatch. -/

namespace Sys2Proof.Machine

/-- The named registers of the window (10_state.md R23). -/
inductive Reg where
  | cmd
  | status
  | ctrl
  | block
  | keyLo
  | keyHi
  | dkeyLo
  | dkeyHi
  | serial
  | cntbtn
  | state
  | decres
  | payload0
  | payload1
  | payload2
  | kt0
  | kt1
  | kt2
  | kt3
  deriving DecidableEq, Repr

/-- The offset of a register (10_state.md R23). -/
def Reg.offset : Reg → Byte
  | .cmd => 0x00
  | .status => 0x04
  | .ctrl => 0x08
  | .block => 0x0C
  | .keyLo => 0x10
  | .keyHi => 0x14
  | .dkeyLo => 0x18
  | .dkeyHi => 0x1C
  | .serial => 0x20
  | .cntbtn => 0x24
  | .state => 0x28
  | .decres => 0x2C
  | .payload0 => 0x30
  | .payload1 => 0x34
  | .payload2 => 0x38
  | .kt0 => 0x40
  | .kt1 => 0x44
  | .kt2 => 0x48
  | .kt3 => 0x4C

/-- The register at an aligned offset; none at the reserved offsets 0x3C and 0x50 to 0xFC (10_state.md R23, R36). -/
def regAt (off : Byte) : Option Reg :=
  match off.toNat with
  | 0x00 => some .cmd
  | 0x04 => some .status
  | 0x08 => some .ctrl
  | 0x0C => some .block
  | 0x10 => some .keyLo
  | 0x14 => some .keyHi
  | 0x18 => some .dkeyLo
  | 0x1C => some .dkeyHi
  | 0x20 => some .serial
  | 0x24 => some .cntbtn
  | 0x28 => some .state
  | 0x2C => some .decres
  | 0x30 => some .payload0
  | 0x34 => some .payload1
  | 0x38 => some .payload2
  | 0x40 => some .kt0
  | 0x44 => some .kt1
  | 0x48 => some .kt2
  | 0x4C => some .kt3
  | _ => none

/-- `bus_err` in the cycle of the host's latest access (20_memory.md R60, R62, R63). -/
def Reply.busErr : Reply → Bool
  | .refused _ => true
  | .none => false
  | .written => false
  | .data _ => false

/-- `bus_rdata` where the spec gives it: the value of a read, 0 for a refused read (20_memory.md R60, R62, R63). For a write,
taken or refused, the spec gives none and the model has none (assumption log 9). -/
def Reply.rdata : Reply → Option Word
  | .data v => some v
  | .refused false => some 0
  | .refused true => .none
  | .none => .none
  | .written => .none

/-- Where a register stands on the platform's bus: `BASE_ADDR` plus its offset. The block sees the offset alone
(20_memory.md R60, R66). -/
def Reg.address (c : Cfg) (r : Reg) : Nat := c.baseAddr + r.offset.toNat

/-- The value of a register as the map defines it; reserved bits read 0 (10_state.md R23 to R35). -/
def State.readReg (s : State) : Reg → Word
  | .cmd => 0
  | .status => s.statusWord
  | .ctrl => s.ctrlWord
  | .block => s.block
  | .keyLo => s.keyLo
  | .keyHi => s.keyHi
  | .dkeyLo => s.dkeyLo
  | .dkeyHi => s.dkeyHi
  | .serial => s.serial.setWidth 32
  | .cntbtn => (0 : Byte) ++ s.button ++ s.counter
  | .state => s.cstate
  | .decres => (0 : Byte) ++ s.decButton ++ s.decCounter
  | .payload0 => s.payload0
  | .payload1 => s.payload1
  | .payload2 => s.payload2.setWidth 32
  | .kt0 => ktWord s.kt 0
  | .kt1 => ktWord s.kt 1
  | .kt2 => ktWord s.kt 2
  | .kt3 => ktWord s.kt 3

/-- What lies at an aligned offset of the window; the reserved offsets read 0 (20_memory.md R66, 10_state.md R36). -/
def State.readAt (s : State) (off : Byte) : Word :=
  match regAt off with
  | some r => s.readReg r
  | none => 0

/-- The registers whose write is dropped while a command runs (70_reset_and_hazards.md R270). -/
def Reg.guarded : Reg → Bool
  | .cmd => true
  | .block => true
  | .keyLo => true
  | .keyHi => true
  | .dkeyLo => true
  | .dkeyHi => true
  | .serial => true
  | .cntbtn => true
  | .state => true
  | .payload0 => true
  | .payload1 => true
  | .payload2 => true
  | .status => false
  | .ctrl => false
  | .decres => false
  | .kt0 => false
  | .kt1 => false
  | .kt2 => false
  | .kt3 => false

/-- The write sets (70_reset_and_hazards.md R271). -/
def writeSet : Instr → List Reg
  | .nop => []
  | .stdEnc => [.block]
  | .stdDec => [.block]
  | .derive => [.dkeyLo, .dkeyHi]
  | .expand => [.kt0, .kt1, .kt2, .kt3, .state]
  | .scrL _ => [.state]
  | .scrR _ => [.state]
  | .encPayload => [.kt0, .kt1, .kt2, .kt3, .state, .block]
  | .decPayload => [.kt0, .kt1, .kt2, .kt3, .state, .decres]
  | .build => [.kt0, .kt1, .kt2, .kt3, .state, .payload0, .payload1, .payload2]
  | .decode => [.kt0, .kt1, .kt2, .kt3, .state, .decres]
  | .pulse => []

/-- Whether a read of the register is a draw: BUSY = 1 and it is in the running command's write set (R272). -/
def State.unreadable (s : State) (r : Reg) : Bool :=
  s.busy && (match s.running with
    | some i => (writeSet i).contains r
    | none => false)

/-- A write of CTRL: SRST performs the soft reset, which DONE_IE of the same write does not outlive; else DONE_IE is
written (10_state.md R26, 70_reset_and_hazards.md R262). -/
def writeCtrl (v : Word) (s : State) : State :=
  if v.getLsbD 1 then resetBlock s else { s with doneIe := v.getLsbD 0 }

/-- A write of a data register while BUSY = 0; read-only registers ignore it and reserved bits are not kept
(10_state.md R23, R27 to R35). -/
def writeData (r : Reg) (v : Word) (s : State) : State :=
  match r with
  | .block => { s with block := v }
  | .keyLo => { s with keyLo := v }
  | .keyHi => { s with keyHi := v }
  | .dkeyLo => { s with dkeyLo := v }
  | .dkeyHi => { s with dkeyHi := v }
  | .serial => { s with serial := v.setWidth 28 }
  | .cntbtn => { s with counter := v.extractLsb' 0 16, button := v.extractLsb' 16 8 }
  | .state => { s with cstate := v }
  | .payload0 => { s with payload0 := v }
  | .payload1 => { s with payload1 := v }
  | .payload2 => { s with payload2 := v.setWidth 8 }
  | .cmd => s
  | .status => s
  | .ctrl => s
  | .decres => s
  | .kt0 => s
  | .kt1 => s
  | .kt2 => s
  | .kt3 => s

/-- A write to any register but CMD: STATUS and CTRL take effect whatever BUSY is; while BUSY = 1 a write to a guarded
register is dropped and sets WERR (R270); else the register is written. -/
def writeReg (r : Reg) (v : Word) (s : State) : State :=
  match r with
  | .status => s.writeStatus v
  | .ctrl => writeCtrl v s
  | r => if s.busy && r.guarded then { s with werr := true } else writeData r v s

/-- A read of an aligned offset: the register's value, or a draw while the running command may be writing it (R272).
Reads have no other effect (20_memory.md R64). -/
def busRead (off : Byte) (s : State) : State :=
  match regAt off with
  | none => { s with reply := .data 0 }
  | some r =>
    if s.unreadable r then { s with reply := .data (Config.freeRead s.draws), draws := s.draws + 1 }
    else { s with reply := .data (s.readReg r) }

/-- The faults of an access: misaligned, partial, or both (20_memory.md R62, R63; assumption log 8). -/
def BusAccess.faults (a : BusAccess) : List BusFault :=
  (if aligned a.addr then [] else [.misaligned a.addr]) ++ (if fullWord a.be then [] else [.partialAccess a.addr])

/-- A refused access: `bus_err` = 1, nothing changes but the recorded faults (20_memory.md R62, R63; 60_exceptions.md
R232). -/
def refuseAccess (we : Bool) (fs : List BusFault) (s : State) : State :=
  { fs.foldl (fun s f => recordFault f s) s with reply := .refused we }

end Sys2Proof.Machine
end

