-- ==== Sys2Proof/Machine/Sequencer.lean ====
section
/-! DEFINITION. The sequencer of 10_state.md R37: what a command loads when it is accepted and at the start of each pass,
and one clock cycle of its bit-serial schedule (40_standard_cipher.md R113, 41_scramble_cipher.md R155,
42_payload_codec.md R179). -/

namespace Sys2Proof.Machine

/-- What one 528-step pass runs. -/
inductive PassKind where
  | enc
  | dec
  | left
  | right
  deriving DecidableEq, Repr

/-- The pass `n` of a command. NOP and PULSE run no 528-step pass (R113, R155, R179). -/
def passKind (i : Instr) (n : Fin 3) : Option PassKind :=
  match i with
  | .nop => none
  | .stdEnc => some .enc
  | .stdDec => some .dec
  | .derive => some .dec
  | .expand => some .left
  | .scrL _ => some .left
  | .scrR _ => some .right
  | .encPayload => if n = 2 then some .right else some .left
  | .decPayload => some .left
  | .build => if n = 2 then some .right else some .left
  | .decode => some .left
  | .pulse => none

/-- The last pass of a command: DERIVE and EXPAND take two, the payload commands three (R113, R155, R179). -/
def lastPass : Instr → Fin 3
  | .nop => 0
  | .stdEnc => 0
  | .stdDec => 0
  | .derive => 1
  | .expand => 1
  | .scrL _ => 0
  | .scrR _ => 0
  | .encPayload => 2
  | .decPayload => 2
  | .build => 2
  | .decode => 2
  | .pulse => 0

/-- The latency N of a multi-cycle command, in cycles after acceptance: one bit-step a cycle
(70_reset_and_hazards.md R280). NOP completes in its acceptance cycle. A PULSE takes one cycle for each record, and one more
for each cycle in which the sink is not ready; the count here is for a sink that always is. -/
def latency (i : Instr) : Nat :=
  match i with
  | .nop => 0
  | .pulse => (pulseSeq cfg (Vector.replicate 9 0)).length
  | i => 528 * ((lastPass i).val + 1)

/-- Start of a StandardCipher pass: the block, and the key copy loaded from KEY (10_state.md R37). -/
def loadStd (block : Word) (key : DWord) (q : Seq) : Seq := { q with r := 0, blk := block, kc := key }

/-- Start of a ScrambleCipher pass at table index `p` (R132, R133). -/
def loadScramble (S : CState) (p : Fin 8) (q : Seq) : Seq := { q with r := 0, o := 0, i := 0, p := p, work := S }

/-- What a payload command's third pass scrambles, from index 0 rightward for ENC_PAYLOAD and BUILD and from index 1
leftward for DEC_PAYLOAD and DECODE; the expansion passes scramble the two seeds leftward (R136, R139, R141). -/
def loadPayloadPass (S : CState) (p : Fin 8) (n : Fin 3) (s : State) (q : Seq) : Seq :=
  match n with
  | 0 => loadScramble (expandSeed (serialBytes s.serial) 0x20) 1 q
  | 1 => loadScramble (expandSeed (serialBytes s.serial) 0x60) 1 q
  | 2 => loadScramble S p q

/-- What a command's pass `n` loads before it starts. -/
def loadPass (i : Instr) (n : Fin 3) (s : State) (q : Seq) : Seq :=
  match i with
  | .nop => q
  | .stdEnc => loadStd s.block s.key q
  | .stdDec => loadStd s.block s.key q
  | .derive => loadStd (if n = 0 then deriveSeedHi s.serial else deriveSeedLo s.serial) s.key q
  | .expand => loadScramble (expandSeed (serialBytes s.serial) (if n = 0 then 0x20 else 0x60)) 1 q
  | .scrL _ => loadScramble (le4 s.cstate) 1 q
  | .scrR _ => loadScramble (le4 s.cstate) 0 q
  | .encPayload => loadPayloadPass (ptSeed (serialBytes s.serial).ser0 s.counter s.button) 0 n s q
  | .decPayload => loadPayloadPass (le4 s.block) 1 n s q
  | .build => loadPayloadPass (ptSeed (serialBytes s.serial).ser0 s.counter s.button) 0 n s q
  | .decode => loadPayloadPass (le4 s.payload0) 1 n s q
  | .pulse => { q with k := 0, recs := pulseSeq cfg s.payload }

/-- The table of a command's pass `n`: the expansion passes read `le8(DKEY)`, a payload pass its half of the KT just
expanded (R136, R139, R141), SCR_L and SCR_R what TSEL selects. -/
def passTable (i : Instr) (n : Fin 3) (s : State) (q : Seq) : Table :=
  match i with
  | .scrL t => s.tableOf t
  | .scrR t => s.tableOf t
  | .encPayload => if n = 2 then ktHalf (fillKT cfg q.half0 q.half1) cfg.ktHalfR else le8 s.dkey
  | .build => if n = 2 then ktHalf (fillKT cfg q.half0 q.half1) cfg.ktHalfR else le8 s.dkey
  | .decPayload => if n = 2 then ktHalf (fillKT cfg q.half0 q.half1) cfg.ktHalfL else le8 s.dkey
  | .decode => if n = 2 then ktHalf (fillKT cfg q.half0 q.half1) cfg.ktHalfL else le8 s.dkey
  | .nop => le8 s.dkey
  | .stdEnc => le8 s.dkey
  | .stdDec => le8 s.dkey
  | .derive => le8 s.dkey
  | .expand => le8 s.dkey
  | .pulse => le8 s.dkey

/-- "The outer index p and the mix byte update on the cycle that starts each outer round" (41_scramble_cipher.md R155). -/
def startOuter (T : Table) (next : Fin 8 → Fin 8) (q : Seq) : Seq :=
  if q.i = 0 then { q with mix := T[q.p], p := next q.p } else q

/-- One scramble bit-step of the sequencer, its counters advanced. -/
def scrambleCycle (stp : CState × Byte → CState × Byte) (q : Seq) : Seq :=
  let x := stp (q.work, q.mix)
  { q with
    work := x.1, mix := x.2, r := q.r + 1, i := q.i + 1, o := if q.i = 7 then q.o + 1 else q.o }

/-- One StandardCipher round of the sequencer. -/
def stdCycle (rnd : Word × DWord → Word × DWord) (q : Seq) : Seq :=
  let x := rnd (q.blk, q.kc)
  { q with blk := x.1, kc := x.2, r := q.r + 1 }

/-- One bit-step of a pass. -/
def bitStep (kind : PassKind) (T : Table) (q : Seq) : Seq :=
  match kind with
  | .enc => stdCycle (encRound (encTaps cfg.stdTapReading)) q
  | .dec => stdCycle (decRound (decTaps cfg.stdTapReading)) q
  | .left => scrambleCycle (leftStep cfg.scrLeft) (startOuter T (· - 1) q)
  | .right => scrambleCycle (rightStep cfg.scrRight) (startOuter T (· + 1) q)

/-- What the end of a pass that is not the last keeps: DERIVE's high half in `acc`, an expansion's results. -/
def savePass (i : Instr) (q : Seq) : Seq :=
  match i with
  | .derive => { q with acc := q.blk }
  | .expand => { q with half0 := q.work }
  | .encPayload => if q.pass = 0 then { q with half0 := q.work } else { q with half1 := q.work }
  | .decPayload => if q.pass = 0 then { q with half0 := q.work } else { q with half1 := q.work }
  | .build => if q.pass = 0 then { q with half0 := q.work } else { q with half1 := q.work }
  | .decode => if q.pass = 0 then { q with half0 := q.work } else { q with half1 := q.work }
  | .nop => q
  | .stdEnc => q
  | .stdDec => q
  | .scrL _ => q
  | .scrR _ => q
  | .pulse => q

/-- The commit of a command whose last bit-step has just been taken, from what the datapath holds. -/
def commitDatapath (i : Instr) (s : State) : State :=
  let q := s.seq
  let kt := fillKT cfg q.half0 q.half1
  match i with
  | .nop => complete .none s
  | .stdEnc => commitBlock q.blk s
  | .stdDec => commitBlock q.blk s
  | .derive => commitDkey (q.acc ++ q.blk) s
  | .expand => commitExpand (fillKT cfg q.half0 q.work) s
  | .scrL _ => commitScramble q.work s
  | .scrR _ => commitScramble q.work s
  | .encPayload => commitEncPayload kt q.work s
  | .decPayload => commitDecoded (decodedOf (serialBytes s.serial).ser0 kt q.work) s
  | .build => commitBuild kt q.work (packPayload cfg s.serial s.button q.work) s
  | .decode => commitDecoded (decodedOf (serialBytes s.serial).ser0 kt q.work) s
  | .pulse => s

/-- The cycle after a bit-step: inside a pass nothing more; at its end the next pass is loaded, or the command commits. -/
def afterBitStep (i : Instr) (atEnd : Bool) (s : State) : State :=
  if atEnd then
    if s.seq.pass = lastPass i then commitDatapath i s
    else
      let q := { savePass i s.seq with pass := s.seq.pass + 1 }
      { s with seq := loadPass i q.pass s q }
  else s

/-- One clock cycle of the running command (70_reset_and_hazards.md R280). A PULSE moves only by transfers (R192). -/
def cycle (i : Instr) (s : State) : State :=
  match passKind i s.seq.pass with
  | none => s
  | some kind =>
    afterBitStep i (s.seq.r == 527) { s with seq := bitStep kind (passTable i s.seq.pass s s.seq) s.seq }

/-- Acceptance of a legal command word: STATUS as `presented`, OP and TSEL latched, `phase <- Busy`, and the sequencer
loaded for the first pass (60_exceptions.md R225, 10_state.md R37). -/
def accept (i : Instr) (s : State) : State :=
  let s1 := presented (opcodeOf i) s
  let q := { s.seq with phase := .busy, op := opcodeOf i, tsel := tselOf i, pass := 0 }
  { s1 with seq := loadPass i 0 s1 q }

/-- The two occasions on which a command takes a step: its word is presented while the sequencer is Idle (acceptance,
R225), or it is the running command and the sequencer moves (completion, R226, or for PULSE one transfer). A word written
to CMD while Busy never reaches a command (10_state.md R24): the host's access drops it before decoding. Which command runs
is the caller's to know (assumption log 13). -/
def commandTurn (onPresent onRun : State → State) (s : State) : Result :=
  match s.seq.phase with
  | .idle => .next (onPresent s)
  | .busy => .next (onRun s)

end Sys2Proof.Machine
end

