-- ==== Sys2Proof/Machine/ControlCommands.lean ====
section
/-! DEFINITION. The meaning of NOP (44_control.md R210). The block has no other control command (R211, R212). -/

namespace Sys2Proof.Machine

/-- NOP completes in its acceptance cycle: BUSY is never set and only STATUS is written (R210, R225). -/
def execNop (s : State) : Result :=
  commandTurn (fun s => complete .none (presented (opcodeOf .nop) s)) (complete .none) s

end Sys2Proof.Machine
end

