-- ==== Sys2Proof/Machine/PayloadCommands.lean ====
section
/-! DEFINITION. The meanings of BUILD and DECODE (42_payload_codec.md R175, R176). -/

namespace Sys2Proof.Machine

/-- BUILD: a button outside VALID_BUTTONS is refused at acceptance with INVALID_BUTTON, writing STATUS alone (R174, R224);
else KT, STATE and the nine payload bytes at completion (R175). -/
def execBuild (s : State) : Result :=
  commandTurn
    (fun s =>
      if buttonRefused cfg s.button then complete .invalidButton (presented (opcodeOf .build) s) else accept .build s)
    (fun s =>
      let b := buildPayload cfg s.serial s.counter s.button (le8 s.dkey)
      commitBuild b.1 b.2.1 b.2.2 s) s

/-- DECODE: decode_payload of PAYLOAD; DECRES if the check passes, else INTEGRITY (R176). -/
def execDecode (s : State) : Result :=
  commandTurn (accept .decode) (fun s => commitDecoded (decodePayload cfg s.serial s.payload (le8 s.dkey)) s) s

end Sys2Proof.Machine
end

