-- ==== Sys2Proof/Machine/PulseCommand.lean ====
section
/-! DEFINITION. The meaning of PULSE (43_pulse_encoder.md R192, R195). -/

namespace Sys2Proof.Machine

/-- PULSE takes the record list of PAYLOAD at acceptance and offers its first record; each further step of it is one
transfer, the last of which completes (R195, 70_reset_and_hazards.md R273). It writes no register. -/
def execPulse (s : State) : Result :=
  commandTurn
    (fun s =>
      let s1 := accept .pulse s
      { s1 with port := offered s1.seq.recs 0 })
    transfer s

end Sys2Proof.Machine
end

