-- ==== Sys2Proof/Machine/ScrambleCommands.lean ====
section
/-! DEFINITION. The meanings of EXPAND, SCR_L, SCR_R, ENC_PAYLOAD and DEC_PAYLOAD (41_scramble_cipher.md R150 to R154). -/

namespace Sys2Proof.Machine

/-- EXPAND: KT from SERIAL and DKEY; STATE is left at KT[4..7] (R150, R140). -/
def execExpand (s : State) : Result :=
  commandTurn (accept .expand) (fun s => commitExpand (expandKT cfg (serialBytes s.serial) (le8 s.dkey)) s) s

/-- SCR_L: `STATE <- unle4(ShiftLeft(le4(STATE), T))`, T selected by TSEL (R151). -/
def execScrL (t : TableSel) (s : State) : Result :=
  commandTurn (accept (.scrL t)) (fun s => commitScramble (shiftLeft cfg (le4 s.cstate) (s.tableOf t)) s) s

/-- SCR_R: `STATE <- unle4(ShiftRight(le4(STATE), T))`, T selected by TSEL (R152). -/
def execScrR (t : TableSel) (s : State) : Result :=
  commandTurn (accept (.scrR t)) (fun s => commitScramble (shiftRight cfg (le4 s.cstate) (s.tableOf t)) s) s

/-- ENC_PAYLOAD: KT, then the ciphertext in STATE and BLOCK; the button is not checked (R153). -/
def execEncPayload (s : State) : Result :=
  commandTurn (accept .encPayload)
    (fun s =>
      let e := encPayload cfg (serialBytes s.serial) s.counter s.button (le8 s.dkey)
      commitEncPayload e.1 e.2 s) s

/-- DEC_PAYLOAD: KT and the decrypted bytes, DECRES if the redundancy check passes, else INTEGRITY (R154). -/
def execDecPayload (s : State) : Result :=
  commandTurn (accept .decPayload)
    (fun s => commitDecoded (decPayload cfg (serialBytes s.serial) s.block (le8 s.dkey)) s) s

end Sys2Proof.Machine
end

