-- ==== Sys2Proof/Machine/StdCommands.lean ====
section
/-! DEFINITION. The meanings of STD_ENC, STD_DEC and DERIVE (40_standard_cipher.md R110 to R112). -/

namespace Sys2Proof.Machine

/-- STD_ENC: `BLOCK <- StdEnc(BLOCK, KEY)` at completion (R110). -/
def execStdEnc (s : State) : Result :=
  commandTurn (accept .stdEnc) (fun s => commitBlock (stdEnc cfg s.block s.key) s) s

/-- STD_DEC: `BLOCK <- StdDec(BLOCK, KEY)` at completion (R111). -/
def execStdDec (s : State) : Result :=
  commandTurn (accept .stdDec) (fun s => commitBlock (stdDec cfg s.block s.key) s) s

/-- DERIVE: `DKEY <- DeriveKey(SERIAL[27:0], KEY)` at completion (R112). -/
def execDerive (s : State) : Result :=
  commandTurn (accept .derive) (fun s => commitDkey (deriveKey cfg s.serial s.key) s) s

end Sys2Proof.Machine
end

