-- ==== Sys2Proof/Machine/Dispatch.lean ====
section
/-! DEFINITION. The dispatch: one arm per command, each a direct call of its meaning. -/

namespace Sys2Proof.Machine

def exec (i : Instr) (s : State) : Host.Outcome State Fault Refusal :=
  match i with
  | .nop => Sys2Proof.Machine.execNop s
  | .stdEnc => Sys2Proof.Machine.execStdEnc s
  | .stdDec => Sys2Proof.Machine.execStdDec s
  | .derive => Sys2Proof.Machine.execDerive s
  | .expand => Sys2Proof.Machine.execExpand s
  | .scrL t => Sys2Proof.Machine.execScrL t s
  | .scrR t => Sys2Proof.Machine.execScrR t s
  | .encPayload => Sys2Proof.Machine.execEncPayload s
  | .decPayload => Sys2Proof.Machine.execDecPayload s
  | .build => Sys2Proof.Machine.execBuild s
  | .decode => Sys2Proof.Machine.execDecode s
  | .pulse => Sys2Proof.Machine.execPulse s

end Sys2Proof.Machine
end

