-- ==== Sys2Proof/Machine/Turns.lean ====
section
/-! DEFINITION. The steps of the functional model (70_reset_and_hazards.md R273): the host's access with the acceptance of
a command word, Complete, Transfer and Reset, and the single clock cycle of R280. -/

namespace Sys2Proof.Machine

/-- A word presented to the decoder while BUSY = 0: a legal one runs its command, an illegal one completes at once with
ILLEGAL_CMD (60_exceptions.md R221, R225). -/
def presentWord (w : Word) (s : State) : Result :=
  match decodeWord w with
  | .ok i => exec i s
  | .error _ => .next (complete .illegalCmd (presented (opField w) s))

/-- `BusWrite(0x00, w)`: dropped with WERR while Busy, else presented (60_exceptions.md R225). -/
def writeCmd (w : Word) (s : State) : Result :=
  match s.seq.phase with
  | .busy => .next { s with werr := true }
  | .idle => presentWord w s

/-- A write of an aligned offset; a reserved offset ignores it and sets no flag (10_state.md R36). -/
def busWrite (off : Byte) (v : Word) (s : State) : Result :=
  let s1 := { s with reply := .written }
  match regAt off with
  | none => .next s1
  | some .cmd => writeCmd v s1
  | some r => .next (writeReg r v s1)

/-- One bus access (20_memory.md R61 to R64). -/
def access (a : BusAccess) (s : State) : Result :=
  match a.faults with
  | [] => if a.we then busWrite a.addr a.wdata s else .next (busRead a.addr s)
  | f :: fs => .next (refuseAccess a.we (f :: fs) s)

/-- One iteration of `WAIT`: read STATUS, and loop while its bit 0 reads 1 (30_encoding.md R88). -/
def pollStatus (s : State) : State :=
  let s1 := busRead Reg.status.offset s
  if s.busy then s1 else { s1 with host := s.host.tail }

/-- The host's turn: its next action, if it has one left. -/
def hostTurn (s : State) : Result :=
  match s.host with
  | [] => .next s
  | .bus a :: rest => access a { s with host := rest }
  | .wait :: _ => .next (pollStatus s)
  | .waitIrq :: rest => .next (if s.irq then { s with host := rest } else s)

/-- Complete: the running command, unless it is PULSE, takes its effect (R273 step 2). Nothing is enabled while Idle. -/
def completeTurn (s : State) : Result :=
  match s.seq.phase with
  | .idle => .next s
  | .busy =>
    match s.running with
    | none => .next s
    | some i => if i = .pulse then .next s else exec i s

/-- Transfer: an edge with `pls_ready` = 1, enabled while PULSE runs (R273 step 3). -/
def transferTurn (s : State) : Result :=
  match s.seq.phase with
  | .idle => .next s
  | .busy =>
    match s.running with
    | none => .next s
    | some i => if i = .pulse then exec i s else .next s

/-- One clock cycle of the running command's bit-serial schedule (R280). -/
def tickTurn (s : State) : State :=
  match s.seq.phase with
  | .idle => s
  | .busy =>
    match s.running with
    | none => s
    | some i => cycle i s

/-- An edge with `rst_n` = 0 at which the host presents an access: it is ignored, and a read returns 0 (R260), so a `WAIT`
reads BUSY = 0 and ends; irq is 0 (assumption log 10). -/
def hostInReset (s : State) : State :=
  match s.host with
  | [] => resetBlock s
  | .bus a :: rest => { resetBlock s with host := rest, reply := if a.we then .written else .data 0 }
  | .wait :: rest => { resetBlock s with host := rest, reply := .data 0 }
  | .waitIrq :: _ => resetBlock s

/-- What a turn does (R273). -/
def takeTurn (t : Turn) (s : State) : Result :=
  match t with
  | .host => hostTurn s
  | .complete => completeTurn s
  | .tick => .next (tickTurn s)
  | .transfer => transferTurn s
  | .hardReset => .next (resetBlock s)
  | .hostInReset => .next (hostInReset s)

/-- The bus write that presents a command word: `BusWrite(0x00, word)` (30_encoding.md R88). -/
def cmdWrite (w : Word) : HostAction := .bus { we := true, addr := Reg.cmd.offset, be := 0b1111, wdata := w }

/-- The state in which the host's very next access presents `w` to an Idle sequencer (see `State.withFetchWord`). -/
def placeWord (w : Word) (s : State) : State :=
  { s with
    seq := { s.seq with phase := .idle }
    port := { s.port with valid := false }
    host := cmdWrite w :: s.host
    turns := .host :: s.turns }

end Sys2Proof.Machine
end

