-- ==== Sys2Proof/Machine/Step.lean ====
section
/-! DEFINITION. One step of the machine: the agent whose turn it is moves (70_reset_and_hazards.md R273). -/

namespace Sys2Proof.Machine

/-- One step: the next turn of the schedule is taken. Where the schedule has run out the sequencer completes a running command
other than PULSE, so that every run is weakly fair to Complete (R273; assumption log 5); else nothing changes (60_exceptions.md
R238, 70_reset_and_hazards.md R275). -/
def step (s : State) : Host.Outcome State Fault Refusal :=
  match s.turns with
  | [] => completeTurn s
  | t :: ts => takeTurn t { s with turns := ts }

/-- The state in which the very next step runs the word `w`. The block fetches nothing (10_state.md R22): a command comes
from a host write to CMD (R24). So the write is put first among the host's accesses, the host's turn first in the schedule,
and a running command, which would make the bus drop the write, is set aside (assumption log 16). -/
def State.withFetchWord (s : State) (nbits w : Nat) : State :=
  placeWord (BitVec.ofNat 32 (w % 2 ^ nbits)) s

end Sys2Proof.Machine
end

