-- ==== Sys2Proof/Machine/HostProgram.lean ====
section
/-! DEFINITION. Host programs: the statements of 30_encoding.md R88 and the bus actions they expand to. They are data the
host agent issues (`State.host`); the block stores no program (20_memory.md R74). -/

namespace Sys2Proof.Machine

/-- The two 64-bit register pairs that `WR64` names (R88). -/
inductive WideReg where
  | key
  | dkey
  deriving DecidableEq, Repr

/-- The low half of a pair. -/
def WideReg.lo : WideReg → Reg
  | .key => .keyLo
  | .dkey => .dkeyLo

/-- The high half of a pair. -/
def WideReg.hi : WideReg → Reg
  | .key => .keyHi
  | .dkey => .dkeyHi

/-- A statement or pseudo-statement of a host program (R88). -/
inductive Stmt where
  /-- `WR <reg>, <imm32>`. -/
  | wr (r : Reg) (v : Word)
  /-- `RD <reg>`. -/
  | rd (r : Reg)
  /-- `CMD <mnemonic> [table]`. -/
  | cmd (i : Instr)
  /-- `WAIT`. -/
  | wait
  /-- `CLR`: clear DONE and WERR. -/
  | clr
  /-- `SRST`. -/
  | srst
  /-- `WR64 <KEY or DKEY>, <imm64>`. -/
  | wr64 (r : WideReg) (v : DWord)
  /-- `RUN <mnemonic> [table]`. -/
  | run (i : Instr)
  deriving DecidableEq, Repr

/-- `BusWrite(off(reg), v)`. -/
def regWrite (r : Reg) (v : Word) : HostAction := .bus { we := true, addr := r.offset, be := 0b1111, wdata := v }

/-- `BusRead(off(reg))`. -/
def regRead (r : Reg) : HostAction := .bus { we := false, addr := r.offset, be := 0b1111, wdata := 0 }

/-- The bus actions of a statement (R88). -/
def Stmt.expand : Stmt → List HostAction
  | .wr r v => [regWrite r v]
  | .rd r => [regRead r]
  | .cmd i => [cmdWrite (encode i)]
  | .wait => [.wait]
  | .clr => [regWrite .status 0x00000022]
  | .srst => [regWrite .ctrl 0x00000002]
  | .wr64 r v => [regWrite r.lo (v.extractLsb' 0 32), regWrite r.hi (v.extractLsb' 32 32)]
  | .run i => [cmdWrite (encode i), .wait]

/-- The bus actions of a program, in order (R88: "The encoding of a host program"). -/
def expandProgram (prog : List Stmt) : List HostAction := prog.flatMap Stmt.expand

/-- The assembler name of a table (30_encoding.md R87). -/
def tableName : TableSel → String
  | .dkey => "dkey"
  | .kt0 => "kt0"
  | .kt1 => "kt1"

/-- A command as a host program writes it (30_encoding.md R87). -/
def commandText : Instr → String
  | .nop => "NOP"
  | .stdEnc => "STD_ENC"
  | .stdDec => "STD_DEC"
  | .derive => "DERIVE"
  | .expand => "EXPAND"
  | .scrL t => "SCR_L " ++ tableName t
  | .scrR t => "SCR_R " ++ tableName t
  | .encPayload => "ENC_PAYLOAD"
  | .decPayload => "DEC_PAYLOAD"
  | .build => "BUILD"
  | .decode => "DECODE"
  | .pulse => "PULSE"

end Sys2Proof.Machine
end

