-- ==== Sys2Proof/Safety.lean ====
section
/-! DEFINITION. The terms in which claims about runs are made: the end of a run, the absence of bus faults, the part of a
state the functional model speaks of, and the invariant every step keeps. -/

namespace Sys2Proof.Machine

/-- The premise of every claim about a host program (60_exceptions.md R232). -/
def State.noBusFault (s : State) : Prop := s.faults = []

/-- The block is quiescent: "phase = Idle and, for PULSE, k = |L|" (70_reset_and_hazards.md R274). -/
def State.quiescent (s : State) : Prop := s.seq.phase = .idle ∧ (s.running = some .pulse → s.seq.k = s.seq.recs.length)

/-- A host program's run has ended (70_reset_and_hazards.md R274). -/
def State.runEnded (s : State) : Prop := s.host = [] ∧ s.quiescent

/-- The state the functional model speaks of: of the sequencer, phase, op, tsel, L and k alone (10_state.md R37, R273). -/
def visible (s : State) : State :=
  { s with
    seq :=
      { Seq.reset with
        phase := s.seq.phase, op := s.seq.op, tsel := s.seq.tsel, k := s.seq.k, recs := s.seq.recs } }

/-- The stream port offers a record exactly while PULSE runs, and then record k of L (10_state.md R40, 43_pulse_encoder.md
R192); L is the sequence of PAYLOAD, which no write can have changed since acceptance (R195, 70_reset_and_hazards.md R270). -/
def PortInv (s : State) : Prop :=
  if s.seq.phase = .busy ∧ s.running = some .pulse then
    s.port = offered s.seq.recs s.seq.k ∧ s.seq.k < s.seq.recs.length ∧ s.seq.recs = pulseSeq cfg s.payload
  else s.port.valid = false

/-- What the finished passes of the running command have left in the sequencer (10_state.md R37: `acc`; the expansion
results are the model's own registers). -/
def PassesInv (i : Instr) (s : State) : Prop :=
  match i with
  | .derive => s.seq.pass = 1 → s.seq.acc = stdDec cfg (deriveSeedHi s.serial) s.key
  | .expand => s.seq.pass = 1 → s.seq.half0 = shiftLeft cfg (expandSeed (serialBytes s.serial) 0x20) (le8 s.dkey)
  | .encPayload | .decPayload | .build | .decode =>
    (1 ≤ s.seq.pass → s.seq.half0 = shiftLeft cfg (expandSeed (serialBytes s.serial) 0x20) (le8 s.dkey)) ∧
      (s.seq.pass = 2 → s.seq.half1 = shiftLeft cfg (expandSeed (serialBytes s.serial) 0x60) (le8 s.dkey))
  | .nop | .stdEnc | .stdDec | .scrL _ | .scrR _ | .pulse => True

/-- The sequencer is where `r` bit-steps from the start of the current pass have brought it, on the inputs the registers
hold (70_reset_and_hazards.md R270: they are constant for the whole run). -/
def DatapathInv (i : Instr) (s : State) : Prop :=
  s.seq.pass ≤ lastPass i ∧ PassesInv i s ∧
    match passKind i s.seq.pass with
    | none => True
    | some kind =>
      s.seq = times (bitStep kind (passTable i s.seq.pass s s.seq)) s.seq.r.val (loadPass i s.seq.pass s s.seq)

/-- While a command runs: OP and TSEL name a command other than NOP, STATUS is as acceptance left it (10_state.md R38), a
running BUILD has a valid button (42_payload_codec.md R174), and the datapath is where it should be. -/
def BusyInv (s : State) : Prop :=
  s.seq.phase = .busy →
    s.doneFlag = false ∧ s.err = .none ∧ s.lastop = s.seq.op ∧
      ∃ i, s.running = some i ∧ i ≠ .nop ∧ (i = .build → buttonRefused cfg s.button = false) ∧ DatapathInv i s

/-- The invariant of the block. F is a set (70_reset_and_hazards.md R273). -/
def Inv (s : State) : Prop := PortInv s ∧ BusyInv s ∧ s.faults.Nodup

/-- What acceptance of a command other than PULSE does, by the fields it writes: STATUS and the sequencer, and nothing else
(60_exceptions.md R225). -/
def AcceptedAs (op : BitVec 4) (tsel : BitVec 2) (s t : State) : Prop :=
  ∃ q : Seq, t = { s with doneFlag := false, err := .none, lastop := op, seq := q } ∧
    q.phase = .busy ∧ q.op = op ∧ q.tsel = tsel

/-- `s` with a completed command's STATUS: `phase <- Idle; DONE <- 1; ERR <- code` (60_exceptions.md R226). -/
def completedWith (code : ErrCode) (s : State) : State :=
  { s with seq := { s.seq with phase := .idle }, doneFlag := true, err := code }

/-- A word with the given OP that starts nothing: presented, it completes at once with ILLEGAL_CMD and writes STATUS alone
(60_exceptions.md R221). -/
def IllegalVariant (op : BitVec 4) (w : Word) : Prop :=
  legal w = false ∧
    ∀ s : State, s.seq.phase = .idle →
      presentWord w s = .next { s with doneFlag := true, err := .illegalCmd, lastop := op }

/-- `NLF` at the index `b[t0] + 2 b[t1] + 4 b[t2] + 8 b[t3] + 16 b[t4]`, read as a number (40_standard_cipher.md R100, R101). -/
def nlfAt (b : Word) (t0 t1 t2 t3 t4 : Nat) : Bool :=
  (0x3A5C742E : Word).getLsbD
    ((b.getLsbD t0).toNat + 2 * (b.getLsbD t1).toNat + 4 * (b.getLsbD t2).toNat + 8 * (b.getLsbD t3).toNat +
      16 * (b.getLsbD t4).toNat)

/-- The mask of one ShiftLeft step, written out from the bits of 41_scramble_cipher.md R132. -/
def leftMaskText (S : CState) : Byte :=
  let m0 : Byte :=
    if S.s3.getLsbD 6 then (if S.s3.getLsbD 1 then 0x5C else 0x3A) else (if S.s3.getLsbD 1 then 0x2E else 0x74)
  let m1 := if S.s2.getLsbD 3 then m0.rotateLeft 4 else m0
  let m2 := if S.s1.getLsbD 0 then m1.rotateLeft 2 else m1
  if S.s0.getLsbD 0 then m2.rotateLeft 1 else m2

/-- The mask of one ShiftRight step, written out from the bits of 41_scramble_cipher.md R133. -/
def rightMaskText (S : CState) : Byte :=
  let m0 : Byte :=
    if S.s3.getLsbD 7 then (if S.s3.getLsbD 2 then 0x3A else 0x5C) else (if S.s3.getLsbD 2 then 0x74 else 0x2E)
  let m1 := if S.s2.getLsbD 4 then m0.rotateRight 4 else m0
  let m2 := if S.s1.getLsbD 1 then m1.rotateRight 2 else m1
  if S.s0.getLsbD 1 then m2.rotateRight 1 else m2

/-- `t` is `s` after one ShiftLeft step under the mix byte, bit by bit (41_scramble_cipher.md R132). -/
def IsLeftStep (mix : Byte) (s t : CState) : Prop :=
  t.s0.getLsbD 0 = ((leftMaskText s).getLsbD 7 ^^ s.s1.getLsbD 7 ^^ s.s3.getLsbD 7 ^^ mix.getLsbD 7) ∧
    t.s1.getLsbD 0 = s.s0.getLsbD 7 ∧ t.s2.getLsbD 0 = s.s1.getLsbD 7 ∧ t.s3.getLsbD 0 = s.s2.getLsbD 7 ∧
    ∀ b < 7, t.s0.getLsbD (b + 1) = s.s0.getLsbD b ∧ t.s1.getLsbD (b + 1) = s.s1.getLsbD b ∧
      t.s2.getLsbD (b + 1) = s.s2.getLsbD b ∧ t.s3.getLsbD (b + 1) = s.s3.getLsbD b

/-- `t` is `s` after one ShiftRight step under the mix byte, bit by bit (41_scramble_cipher.md R133). -/
def IsRightStep (mix : Byte) (s t : CState) : Prop :=
  t.s3.getLsbD 7 = ((rightMaskText s).getLsbD 0 ^^ s.s0.getLsbD 0 ^^ s.s2.getLsbD 0 ^^ mix.getLsbD 0) ∧
    t.s0.getLsbD 7 = s.s1.getLsbD 0 ∧ t.s1.getLsbD 7 = s.s2.getLsbD 0 ∧ t.s2.getLsbD 7 = s.s3.getLsbD 0 ∧
    ∀ b < 7, t.s0.getLsbD b = s.s0.getLsbD (b + 1) ∧ t.s1.getLsbD b = s.s1.getLsbD (b + 1) ∧
      t.s2.getLsbD b = s.s2.getLsbD (b + 1) ∧ t.s3.getLsbD b = s.s3.getLsbD (b + 1)

/-- The reset values of the registers, the flags, the sequencer and the stream port (70_reset_and_hazards.md R260). -/
def AtReset (s : State) : Prop :=
  (∀ r : Reg, s.readReg r = 0) ∧ s.kt = Vector.replicate 16 0 ∧ s.seq = Seq.reset ∧ s.port = Port.reset ∧
    s.irq = false

/-- What a step never touches unless the host's own agent or the sink is concerned: the record of what the outside saw. -/
def sameOutside (s t : State) : Prop := t.out = s.out ∧ t.faults = s.faults ∧ t.host = s.host ∧ t.turns = s.turns

/-- The ticks of a record list, added up. -/
def totalTicks (L : List Record) : Nat := (L.map fun r => r.ticks.toNat).sum

end Sys2Proof.Machine
end

