-- ==== Sys2Proof/Certificates/Slice0/Obligations.lean ====
section
/-! DEFINITION. The statements for the provers. Each docstring names the rule of spec/ it formalises. -/

open Sys2Proof Sys2Proof.Machine

/-! ## Encoding -/

/-- The decoder and the encoder agree on every word and every command (30_encoding.md R80, R81, R83). -/
def Obligations.DecodeReadsExactlyTheEncodedWord : Prop :=
  ∀ (w : Word) (i : Instr), decodeWord w = .ok i ↔ w = encode i

/-- R84: `legal`, one command for a legal word, ILLEGAL_CMD at once for any other. -/
def Obligations.LegalWordSelectsOneCommand : Prop :=
  (∀ w : Word, legal w = true ↔
    w.extractLsb' 6 26 = 0 ∧ (w.extractLsb' 0 4).toNat ≤ 0xB ∧
      (if w.extractLsb' 0 4 = 0x5 ∨ w.extractLsb' 0 4 = 0x6 then w.extractLsb' 4 2 ≠ 3 else w.extractLsb' 4 2 = 0)) ∧
  (∀ w : Word, legal w = true → ∃ i, decodeWord w = .ok i ∧ ∀ j, decodeWord w = .ok j → j = i) ∧
  (∀ w : Word, legal w = false →
    (∃ e, decodeWord w = .error e) ∧
    ∀ s : State, s.seq.phase = .idle →
      presentWord w s =
        .next { s with doneFlag := true, err := .illegalCmd, lastop := w.extractLsb' 0 4 })

/-- R86: the complete list of legal words, and the command of each. -/
def Obligations.SixteenWordsAreLegal : Prop :=
  let words : List (Word × Instr) :=
    [(0x00000000, .nop), (0x00000001, .stdEnc), (0x00000002, .stdDec), (0x00000003, .derive), (0x00000004, .expand),
     (0x00000005, .scrL .dkey), (0x00000015, .scrL .kt0), (0x00000025, .scrL .kt1),
     (0x00000006, .scrR .dkey), (0x00000016, .scrR .kt0), (0x00000026, .scrR .kt1),
     (0x00000007, .encPayload), (0x00000008, .decPayload), (0x00000009, .build), (0x0000000A, .decode),
     (0x0000000B, .pulse)]
  (∀ w i, (w, i) ∈ words → decodeWord w = .ok i) ∧
    ∀ w : Word, legal w = true ↔ w ∈ words.map Prod.fst

/-- A few words written out from the fields of R80 decode to the commands they stand for: RSVD, TSEL, OP. -/
def Obligations.WrittenWordsDecode : Prop :=
  decodeWord 0b00000000000000000000000000_00_0000#32 = .ok .nop ∧
  decodeWord 0b00000000000000000000000000_00_0011#32 = .ok .derive ∧
  decodeWord 0b00000000000000000000000000_10_0101#32 = .ok (.scrL .kt1) ∧
  decodeWord 0b00000000000000000000000000_00_1001#32 = .ok .build ∧
  decodeWord 0b00000000000000000000000000_00_1011#32 = .ok .pulse

/-! ## A step runs the decoded command -/

/-- The host's write of a legal word to CMD, presented to an Idle sequencer, runs its command: acceptance (10_state.md R24).
Around `exec` the step takes the turn and the access off their lists and answers the bus. The word that `withFetchWord`
places is presented so by the very next step. The two lists and `withFetchWord` are the model's (assumption logs 4, 5, 16). -/
def Obligations.StepRunsThePresentedCommand : Prop :=
  (∀ (s : State) (ts : List Turn) (hs : List HostAction) (w : Word) (i : Instr),
    s.turns = .host :: ts → s.host = cmdWrite w :: hs → s.seq.phase = .idle → decodeWord w = .ok i →
      step s = exec i { s with turns := ts, host := hs, reply := .written }) ∧
  (∀ (s : State) (w : Nat) (i : Instr), decodeTableWord 32 w = some i →
    step (s.withFetchWord 32 w) =
      exec i { s with seq := { s.seq with phase := .idle }, port := { s.port with valid := false }, reply := .written })

/-- The sequencer's turn runs the command that is latched: Complete for a command other than PULSE, Transfer for PULSE
(70_reset_and_hazards.md R273); a schedule that has run out goes on with Complete (the schedule is the model's, assumption
log 5). -/
def Obligations.StepRunsTheRunningCommand : Prop :=
  ∀ (s : State) (ts : List Turn) (i : Instr), s.seq.phase = .busy → s.running = some i →
    (s.turns = .complete :: ts → i ≠ .pulse → step s = exec i { s with turns := ts }) ∧
    (s.turns = .transfer :: ts → i = .pulse → step s = exec i { s with turns := ts }) ∧
    (s.turns = [] → i ≠ .pulse → step s = exec i s)

/-! ## Acceptance and completion -/

/-- R225: every case of `BusWrite(0x00, w)`, and R221 among them. -/
def Obligations.CommandWordIsAcceptedAsWritten : Prop :=
  ∀ (w : Word) (s : State),
    (s.seq.phase = .busy → busWrite 0x00 w s = .next { s with reply := .written, werr := true }) ∧
    (s.seq.phase = .idle → legal w = false →
      busWrite 0x00 w s =
        .next { s with reply := .written, doneFlag := true, err := .illegalCmd, lastop := w.extractLsb' 0 4 }) ∧
    (s.seq.phase = .idle → w = 0x00000000 →
      busWrite 0x00 w s = .next { s with reply := .written, doneFlag := true, err := .none, lastop := 0x0 }) ∧
    (s.seq.phase = .idle → w = 0x00000009 → s.button ≠ 0x50 ∧ s.button ≠ 0xA0 ∧ s.button ≠ 0x10 →
      busWrite 0x00 w s = .next { s with reply := .written, doneFlag := true, err := .invalidButton, lastop := 0x9 }) ∧
    (s.seq.phase = .idle → legal w = true → w ≠ 0x00000000 →
      (w = 0x00000009 → s.button = 0x50 ∨ s.button = 0xA0 ∨ s.button = 0x10) →
      ∃ (q : Seq) (p : Port),
        busWrite 0x00 w s =
          .next { s with
            reply := .written, doneFlag := false, err := .none, lastop := w.extractLsb' 0 4, seq := q, port := p } ∧
        q.phase = .busy ∧ q.op = w.extractLsb' 0 4 ∧ q.tsel = w.extractLsb' 4 2 ∧
        (w ≠ 0x0000000B → p = s.port))

/-- R271: the write sets, and that completion of a command changes no other register of the window but STATUS; WERR,
LASTOP, CTRL and what the outside saw stand as well (60_exceptions.md R226). -/
def Obligations.CommandWritesOnlyItsWriteSet : Prop :=
  (writeSet .nop = [] ∧ writeSet .pulse = [] ∧ writeSet .stdEnc = [.block] ∧ writeSet .stdDec = [.block] ∧
    writeSet .derive = [.dkeyLo, .dkeyHi] ∧ writeSet .expand = [.kt0, .kt1, .kt2, .kt3, .state] ∧
    (∀ t, writeSet (.scrL t) = [.state]) ∧ (∀ t, writeSet (.scrR t) = [.state]) ∧
    writeSet .encPayload = [.kt0, .kt1, .kt2, .kt3, .state, .block] ∧
    writeSet .decPayload = [.kt0, .kt1, .kt2, .kt3, .state, .decres] ∧
    writeSet .decode = [.kt0, .kt1, .kt2, .kt3, .state, .decres] ∧
    writeSet .build = [.kt0, .kt1, .kt2, .kt3, .state, .payload0, .payload1, .payload2]) ∧
  (∀ (i : Instr) (s t : State), exec i s = .next t →
    (s.seq.phase = .busy → ∀ r, r ∉ writeSet i → r ≠ .status → t.readReg r = s.readReg r) ∧
    (s.seq.phase = .idle → ∀ r, r ≠ .status → t.readReg r = s.readReg r) ∧
    t.werr = s.werr ∧ t.doneIe = s.doneIe ∧ t.faults = s.faults ∧ t.host = s.host ∧ t.turns = s.turns ∧
    (i ≠ .pulse → t.out = s.out) ∧ (s.seq.phase = .busy → t.lastop = s.lastop))

/-- Nothing stops the machine: every command and every step answers a next state (60_exceptions.md R228, R232). -/
def Obligations.NoStepStopsTheMachine : Prop :=
  (∀ (i : Instr) (s : State), ∃ t, exec i s = .next t) ∧ ∀ s : State, ∃ t, step s = .next t

/-- R222: only BUILD fails on data at acceptance, only DEC_PAYLOAD and DECODE at completion. -/
def Obligations.OnlyBuildAndDecodersFailOnData : Prop :=
  ∀ (i : Instr) (s t : State), Inv s → exec i s = .next t → t.err ≠ .none →
    (i = .build ∧ s.seq.phase = .idle ∧ t.err = .invalidButton ∧ s.button ≠ 0x50 ∧ s.button ≠ 0xA0 ∧ s.button ≠ 0x10) ∨
    ((i = .decPayload ∨ i = .decode) ∧ s.seq.phase = .busy ∧ t.err = .integrity ∧
      integrityOk (s.serial.extractLsb' 0 8) (le4 t.cstate) = false)

/-! ## The commands -/

/-- R210: NOP. -/
def Obligations.NopOnlyWritesStatus : Prop :=
  encode .nop = 0x00000000 ∧
  (∀ s : State, s.seq.phase = .idle →
    exec .nop s = .next { s with doneFlag := true, err := .none, lastop := 0x0 }) ∧
  IllegalVariant 0x0 0x00000010 ∧ IllegalVariant 0x0 0x00000020 ∧ IllegalVariant 0x0 0x00000030 ∧
  (∀ s : State, s.seq.phase = .busy → writeCmd 0x00000000 s = .next { s with werr := true }) ∧
  (∀ s t : State, s.seq.phase = .idle → s.doneIe = true → exec .nop s = .next t → t.irq = true) ∧
  (∀ t : State, exec .nop State.reset = .next t → t.statusWord = 0x00000002)

/-- R110: STD_ENC. -/
def Obligations.StdEncEncryptsBlock : Prop :=
  encode .stdEnc = 0x00000001 ∧
  (∀ s : State, s.seq.phase = .idle → ∃ t, exec .stdEnc s = .next t ∧ AcceptedAs 0x1 0 s t) ∧
  (∀ s : State, s.seq.phase = .busy →
    exec .stdEnc s = .next (completedWith .none { s with block := stdEnc cfg s.block s.key })) ∧
  (∀ w : Word, w.extractLsb' 0 4 = 0x1 → w ≠ 0x00000001 → IllegalVariant 0x1 w) ∧
  stdEnc cfg 0 0 = 0 ∧ stdEnc cfg 0xFFFFFFFF 0xFFFFFFFFFFFFFFFF = 0xFFFFFFFF ∧
  (∀ (s : State) (a b : Word), s.seq.phase = .idle →
    writeReg .keyLo a (writeReg .keyHi b s) = writeReg .keyHi b (writeReg .keyLo a s)) ∧
  stdEnc cfg 0xF741E2DB 0x5CEC6701B79FD949 = 0xE44F4CDF

/-- R111: STD_DEC. -/
def Obligations.StdDecDecryptsBlock : Prop :=
  encode .stdDec = 0x00000002 ∧
  (∀ s : State, s.seq.phase = .idle → ∃ t, exec .stdDec s = .next t ∧ AcceptedAs 0x2 0 s t) ∧
  (∀ s : State, s.seq.phase = .busy →
    exec .stdDec s = .next (completedWith .none { s with block := stdDec cfg s.block s.key })) ∧
  (∀ w : Word, w.extractLsb' 0 4 = 0x2 → w ≠ 0x00000002 → IllegalVariant 0x2 w) ∧
  stdDec cfg 0 0 = 0 ∧ stdDec cfg 0xFFFFFFFF 0xFFFFFFFFFFFFFFFF = 0xFFFFFFFF ∧
  (∀ (b : Word) (k : DWord), stdDec cfg (stdEnc cfg b k) k = b) ∧
  stdDec cfg 0xE44F4CDF 0x5CEC6701B79FD949 = 0xF741E2DB

/-- R112 with R106: DERIVE. -/
def Obligations.DeriveWritesDeviceKey : Prop :=
  encode .derive = 0x00000003 ∧
  (∀ s : State, s.seq.phase = .idle → ∃ t, exec .derive s = .next t ∧ AcceptedAs 0x3 0 s t) ∧
  (∀ s : State, s.seq.phase = .busy →
    exec .derive s =
      .next (completedWith .none
        { s with
          dkeyHi := stdDec cfg (s.serial.setWidth 32 ||| 0x60000000) s.key
          dkeyLo := stdDec cfg (s.serial.setWidth 32 ||| 0x20000000) s.key })) ∧
  (∀ (serial : BitVec 28) (mk : DWord),
    deriveKey cfg serial mk =
      ((stdDec cfg (serial.setWidth 32 ||| 0x60000000) mk).setWidth 64 <<< 32) |||
        (stdDec cfg (serial.setWidth 32 ||| 0x20000000) mk).setWidth 64) ∧
  (∀ w : Word, w.extractLsb' 0 4 = 0x3 → w ≠ 0x00000003 → IllegalVariant 0x3 w) ∧
  deriveSeedHi 0 = 0x60000000 ∧ deriveSeedLo 0 = 0x20000000 ∧ deriveSeedHi 0x0FFFFFFF = 0x6FFFFFFF ∧
  deriveSeedLo 0x0FFFFFFF = 0x2FFFFFFF ∧
  (∀ (x y : BitVec 28) (mk : DWord), x ≠ y → deriveKey cfg x mk ≠ deriveKey cfg y mk) ∧
  deriveKey cfg 0x1234567 0x0123456789ABCDEF = 0x0516FBE989074278

/-- R150 with R136: EXPAND. -/
def Obligations.ExpandBuildsKeyTable : Prop :=
  encode .expand = 0x00000004 ∧
  (∀ s : State, s.seq.phase = .idle → ∃ t, exec .expand s = .next t ∧ AcceptedAs 0x4 0 s t) ∧
  (∀ (s : State) (a b : CState), s.seq.phase = .busy →
    a = shiftLeft cfg
      ⟨s.serial.extractLsb' 0 8, s.serial.extractLsb' 8 8, s.serial.extractLsb' 16 8, 0x20⟩ (le8 s.dkey) →
    b = shiftLeft cfg
      ⟨s.serial.extractLsb' 0 8, s.serial.extractLsb' 8 8, s.serial.extractLsb' 16 8, 0x60⟩ (le8 s.dkey) →
    ∃ t, exec .expand s = .next t ∧
      t = completedWith .none
        { s with
          kt := #v[a.s0, a.s1, a.s2, a.s3, b.s0, b.s1, b.s2, b.s3, a.s0, a.s1, a.s2, a.s3, b.s0, b.s1, b.s2, b.s3]
          cstate := unle4 b } ∧
      t.readReg .kt0 = a.s3 ++ a.s2 ++ a.s1 ++ a.s0 ∧ t.readReg .kt1 = b.s3 ++ b.s2 ++ b.s1 ++ b.s0 ∧
      t.readReg .kt2 = t.readReg .kt0 ∧ t.readReg .kt3 = t.readReg .kt1 ∧ t.readReg .state = t.readReg .kt1) ∧
  (∀ w : Word, w.extractLsb' 0 4 = 0x4 → w ≠ 0x00000004 → IllegalVariant 0x4 w) ∧
  (∀ (x y : BitVec 28) (T : Table), x.extractLsb' 0 24 = y.extractLsb' 0 24 →
    expandKT cfg (serialBytes x) T = expandKT cfg (serialBytes y) T) ∧
  expandKT cfg (serialBytes 0) (le8 0) =
    #v[0x3A, 0xA5, 0x54, 0xBC, 0x7E, 0xBA, 0x3D, 0x18, 0x3A, 0xA5, 0x54, 0xBC, 0x7E, 0xBA, 0x3D, 0x18] ∧
  expandKT cfg (serialBytes 0x1234567) (le8 0x0123456789ABCDEF) =
    #v[0x19, 0x01, 0x87, 0xE9, 0x1F, 0x79, 0xCB, 0xBF, 0x19, 0x01, 0x87, 0xE9, 0x1F, 0x79, 0xCB, 0xBF]

/-- R151: SCR_L, under each of the three tables. -/
def Obligations.ScrLShiftsStateLeft : Prop :=
  encode (.scrL .dkey) = 0x00000005 ∧ encode (.scrL .kt0) = 0x00000015 ∧ encode (.scrL .kt1) = 0x00000025 ∧
  (∀ (s : State) (t : TableSel), s.seq.phase = .idle →
    ∃ u, exec (.scrL t) s = .next u ∧ AcceptedAs 0x5 (t.bits) s u) ∧
  (∀ s : State, s.seq.phase = .busy →
    exec (.scrL .dkey) s =
      .next (completedWith .none { s with cstate := unle4 (shiftLeft cfg (le4 s.cstate) (le8 (s.dkeyHi ++ s.dkeyLo))) }) ∧
    exec (.scrL .kt0) s =
      .next (completedWith .none
        { s with
          cstate := unle4 (shiftLeft cfg (le4 s.cstate)
            #v[s.kt[0], s.kt[1], s.kt[2], s.kt[3], s.kt[4], s.kt[5], s.kt[6], s.kt[7]]) }) ∧
    exec (.scrL .kt1) s =
      .next (completedWith .none
        { s with
          cstate := unle4 (shiftLeft cfg (le4 s.cstate)
            #v[s.kt[8], s.kt[9], s.kt[10], s.kt[11], s.kt[12], s.kt[13], s.kt[14], s.kt[15]]) })) ∧
  (∀ w : Word, w.extractLsb' 0 4 = 0x5 → w.extractLsb' 4 2 = 3 ∨ w.extractLsb' 6 26 ≠ 0 → IllegalVariant 0x5 w) ∧
  shiftLeft cfg ⟨0, 0, 0, 0⟩ (Vector.replicate 8 0) = ⟨0, 0, 0, 0⟩ ∧
  State.reset.tableOf .kt0 = Vector.replicate 8 0 ∧ State.reset.tableOf .kt1 = Vector.replicate 8 0 ∧
  (∀ (S : CState) (T : Table), shiftLeft cfg (shiftRight cfg S T) T = S) ∧
  unle4 (shiftLeft cfg (le4 0x12345678) (le8 0x0123456789ABCDEF)) = 0x188646D6

/-- R152: SCR_R, under each of the three tables. -/
def Obligations.ScrRShiftsStateRight : Prop :=
  encode (.scrR .dkey) = 0x00000006 ∧ encode (.scrR .kt0) = 0x00000016 ∧ encode (.scrR .kt1) = 0x00000026 ∧
  (∀ (s : State) (t : TableSel), s.seq.phase = .idle →
    ∃ u, exec (.scrR t) s = .next u ∧ AcceptedAs 0x6 (t.bits) s u) ∧
  (∀ s : State, s.seq.phase = .busy →
    exec (.scrR .dkey) s =
      .next (completedWith .none { s with cstate := unle4 (shiftRight cfg (le4 s.cstate) (le8 (s.dkeyHi ++ s.dkeyLo))) }) ∧
    exec (.scrR .kt0) s =
      .next (completedWith .none
        { s with
          cstate := unle4 (shiftRight cfg (le4 s.cstate)
            #v[s.kt[0], s.kt[1], s.kt[2], s.kt[3], s.kt[4], s.kt[5], s.kt[6], s.kt[7]]) }) ∧
    exec (.scrR .kt1) s =
      .next (completedWith .none
        { s with
          cstate := unle4 (shiftRight cfg (le4 s.cstate)
            #v[s.kt[8], s.kt[9], s.kt[10], s.kt[11], s.kt[12], s.kt[13], s.kt[14], s.kt[15]]) })) ∧
  (∀ w : Word, w.extractLsb' 0 4 = 0x6 → w.extractLsb' 4 2 = 3 ∨ w.extractLsb' 6 26 ≠ 0 → IllegalVariant 0x6 w) ∧
  shiftRight cfg ⟨0, 0, 0, 0⟩ (Vector.replicate 8 0) = ⟨0, 0, 0, 0⟩ ∧
  (∀ (S : CState) (T : Table), shiftRight cfg (shiftLeft cfg S T) T = S) ∧
  unle4 (shiftRight cfg (le4 0x12345678) (le8 0x0123456789ABCDEF)) = 0xB909A03B

/-- R153 with R139: ENC_PAYLOAD; the right direction uses half 1 of the key table just expanded. -/
def Obligations.EncPayloadEncryptsIntoBlock : Prop :=
  encode .encPayload = 0x00000007 ∧
  (∀ s : State, s.seq.phase = .idle → ∃ t, exec .encPayload s = .next t ∧ AcceptedAs 0x7 0 s t) ∧
  (∀ (s : State) (K : KeyTable) (C : CState), s.seq.phase = .busy →
    K = expandKT cfg (serialBytes s.serial) (le8 s.dkey) →
    C = shiftRight cfg (ptSeed (s.serial.extractLsb' 0 8) s.counter s.button)
      #v[K[8], K[9], K[10], K[11], K[12], K[13], K[14], K[15]] →
    exec .encPayload s = .next (completedWith .none { s with kt := K, cstate := unle4 C, block := unle4 C })) ∧
  (∀ w : Word, w.extractLsb' 0 4 = 0x7 → w ≠ 0x00000007 → IllegalVariant 0x7 w) ∧
  (∀ (ser : Byte) (n : BitVec 16) (x y : Byte), x.extractLsb' 4 4 = y.extractLsb' 4 4 →
    ptSeed ser n x = ptSeed ser n y) ∧
  ptSeed 0x67 0x0001 0x50 = ⟨0x01, 0x00, 0xC0, 0x51⟩ ∧
  unle4 (encPayload cfg (serialBytes 0x1234567) 0x0001 0x50 (le8 0x0123456789ABCDEF)).2 = 0x4E984241

/-- R154 with R141 and R223: DEC_PAYLOAD, the check passed or failed. -/
def Obligations.DecPayloadChecksRedundancy : Prop :=
  encode .decPayload = 0x00000008 ∧
  (∀ s : State, s.seq.phase = .idle → ∃ t, exec .decPayload s = .next t ∧ AcceptedAs 0x8 0 s t) ∧
  (∀ (s : State) (K : KeyTable) (D : CState) (ser0 : Byte), s.seq.phase = .busy →
    K = expandKT cfg (serialBytes s.serial) (le8 s.dkey) → ser0 = s.serial.extractLsb' 0 8 →
    D = shiftLeft cfg (le4 s.block) #v[K[0], K[1], K[2], K[3], K[4], K[5], K[6], K[7]] →
    (D.s2 = ser0 <<< 6 ∧ D.s3 &&& 0x03 = (ser0 >>> 2) &&& 0x03 →
      ∃ t, exec .decPayload s = .next t ∧
        t = completedWith .none
          { s with kt := K, cstate := unle4 D, decCounter := D.s1 ++ D.s0, decButton := D.s3 &&& 0xF0 } ∧
        t.readReg .decres = (0x00 : Byte) ++ (D.s3 &&& 0xF0) ++ D.s1 ++ D.s0) ∧
    (¬(D.s2 = ser0 <<< 6 ∧ D.s3 &&& 0x03 = (ser0 >>> 2) &&& 0x03) →
      ∃ t, exec .decPayload s = .next t ∧ t = completedWith .integrity { s with kt := K, cstate := unle4 D } ∧
        t.readReg .decres = s.readReg .decres)) ∧
  (∀ w : Word, w.extractLsb' 0 4 = 0x8 → w ≠ 0x00000008 → IllegalVariant 0x8 w) ∧
  decPayload cfg (serialBytes 0x1234567) 0x4E984241 (le8 0x4D36A8ED3284FC6F) =
    { kt := expandKT cfg (serialBytes 0x1234567) (le8 0x4D36A8ED3284FC6F), plain := ⟨0xDA, 0xB2, 0xC0, 0x29⟩, ok := true,
      counter := 0xB2DA, button := 0x20 } ∧
  decPayload cfg (serialBytes 0x1234567) 0x4E984241 (le8 0x0123456789ABCDEF) =
    { kt := expandKT cfg (serialBytes 0x1234567) (le8 0x0123456789ABCDEF), plain := le4 0x51C00001, ok := true,
      counter := 0x0001, button := 0x50 } ∧
  (decPayload cfg (serialBytes 0x1234567) 0x4E984241 (le8 0x0123456789ABCDEE)).ok = false ∧
  (decPayload cfg (serialBytes 0x1234567) 0x4E984241 (le8 0x0123456789ABCDEE)).plain = le4 0x170BE54B

/-- R175 with R174 and R224: BUILD refuses a button byte outside the vocabulary, else packs the payload. -/
def Obligations.BuildPacksPayload : Prop :=
  encode .build = 0x00000009 ∧
  (∀ s : State, s.seq.phase = .idle → s.button ≠ 0x50 ∧ s.button ≠ 0xA0 ∧ s.button ≠ 0x10 →
    exec .build s = .next { s with doneFlag := true, err := .invalidButton, lastop := 0x9 }) ∧
  (∀ s : State, s.seq.phase = .idle → s.button = 0x50 ∨ s.button = 0xA0 ∨ s.button = 0x10 →
    ∃ t, exec .build s = .next t ∧ AcceptedAs 0x9 0 s t) ∧
  (∀ (s : State) (K : KeyTable) (C : CState), s.seq.phase = .busy →
    K = expandKT cfg (serialBytes s.serial) (le8 s.dkey) →
    C = shiftRight cfg (ptSeed (s.serial.extractLsb' 0 8) s.counter s.button)
      #v[K[8], K[9], K[10], K[11], K[12], K[13], K[14], K[15]] →
    exec .build s =
      .next (completedWith .none
        { s with
          kt := K, cstate := unle4 C
          payload0 := unle4 C
          payload1 := s.button ++ s.serial.extractLsb' 16 8 ++ s.serial.extractLsb' 8 8 ++ s.serial.extractLsb' 0 8
          payload2 := 0x00 })) ∧
  (∀ w : Word, w.extractLsb' 0 4 = 0x9 → w ≠ 0x00000009 → IllegalVariant 0x9 w) ∧
  (∀ s t : State, s.seq.phase = .busy → exec .build s = .next t → t.readReg .payload2 = 0 ∧ t.block = s.block) ∧
  (∀ (c : Cfg) (b : Byte), buttonRefused c b = true ↔ c.buttonCheck = true ∧ b ∉ c.validButtons) ∧
  (buildPayload cfg 0x1234567 0x0001 0x50 (le8 0x0123456789ABCDEF)).2.2 =
    #v[0x41, 0x42, 0x98, 0x4E, 0x67, 0x45, 0x23, 0x50, 0x00]

/-- R176 with R173: DECODE reads P0..P3 alone. -/
def Obligations.DecodeDecryptsPayload : Prop :=
  encode .decode = 0x0000000A ∧
  (∀ s : State, s.seq.phase = .idle → ∃ t, exec .decode s = .next t ∧ AcceptedAs 0xA 0 s t) ∧
  (∀ (s : State) (K : KeyTable) (D : CState) (ser0 : Byte), s.seq.phase = .busy →
    K = expandKT cfg (serialBytes s.serial) (le8 s.dkey) → ser0 = s.serial.extractLsb' 0 8 →
    D = shiftLeft cfg (le4 s.payload0) #v[K[0], K[1], K[2], K[3], K[4], K[5], K[6], K[7]] →
    (D.s2 = ser0 <<< 6 ∧ D.s3 &&& 0x03 = (ser0 >>> 2) &&& 0x03 →
      ∃ t, exec .decode s = .next t ∧
        t = completedWith .none
          { s with kt := K, cstate := unle4 D, decCounter := D.s1 ++ D.s0, decButton := D.s3 &&& 0xF0 } ∧
        t.readReg .decres = (0x00 : Byte) ++ (D.s3 &&& 0xF0) ++ D.s1 ++ D.s0) ∧
    (¬(D.s2 = ser0 <<< 6 ∧ D.s3 &&& 0x03 = (ser0 >>> 2) &&& 0x03) →
      ∃ t, exec .decode s = .next t ∧ t = completedWith .integrity { s with kt := K, cstate := unle4 D } ∧
        t.readReg .decres = s.readReg .decres)) ∧
  (∀ w : Word, w.extractLsb' 0 4 = 0xA → w ≠ 0x0000000A → IllegalVariant 0xA w) ∧
  (∀ (serial : BitVec 28) (P Q : PayloadBytes) (T : Table),
    P[0] = Q[0] ∧ P[1] = Q[1] ∧ P[2] = Q[2] ∧ P[3] = Q[3] →
      decodePayload cfg serial P T = decodePayload cfg serial Q T) ∧
  (decodePayload cfg 0x1234566 #v[0x41, 0x42, 0x98, 0x4E, 0x67, 0x45, 0x23, 0x50, 0x00] (le8 0x0123456789ABCDEF)).ok =
    false ∧
  decodePayload cfg 0x1234567 #v[0x41, 0x42, 0x98, 0x4E, 0x67, 0x45, 0x23, 0x50, 0x00] (le8 0x0123456789ABCDEF) =
    { kt := expandKT cfg (serialBytes 0x1234567) (le8 0x0123456789ABCDEF), plain := le4 0x51C00001, ok := true,
      counter := 0x0001, button := 0x50 }

/-- PULSE at acceptance: L is the sequence of PAYLOAD, record 0 is offered, no register is written
(43_pulse_encoder.md R192, R195). -/
def Obligations.PulseOffersFirstRecord : Prop :=
  encode .pulse = 0x0000000B ∧
  ∀ s : State, s.seq.phase = .idle →
    ∃ (q : Seq) (r : Record),
      exec .pulse s =
        .next { s with
          doneFlag := false, err := .none, lastop := 0xB, seq := q
          port := { valid := true, level := r.level, ticks := r.ticks, last := false } } ∧
      q.phase = .busy ∧ q.op = 0xB ∧ q.tsel = 0 ∧ q.k = 0 ∧ q.recs = pulseSeq cfg s.payload ∧ q.recs[0]? = some r

/-- R192: each transfer hands over record k and offers the next; the last one completes with `pls_valid` = 0. The statement holds
for whatever function of the sequence the other three outputs then are (assumption log 2). -/
def Obligations.TransferHandsOverOneRecord : Prop :=
  ∃ p : List Record → Port, (∀ L, (p L).valid = false) ∧
    ∀ (s : State) (r : Record), s.seq.phase = .busy → s.seq.recs[s.seq.k]? = some r →
      (∀ r' : Record, s.seq.recs[s.seq.k + 1]? = some r' →
        exec .pulse s =
          .next { s with
            out := s.out ++ [r], seq := { s.seq with k := s.seq.k + 1 }
            port :=
              { valid := true, level := r'.level, ticks := r'.ticks, last := s.seq.k + 2 == s.seq.recs.length } }) ∧
      (s.seq.recs[s.seq.k + 1]? = none →
        exec .pulse s =
          .next { s with
            out := s.out ++ [r], seq := { s.seq with k := s.seq.k + 1, phase := .idle }
            port := p s.seq.recs, doneFlag := true, err := .none })

/-! ## The ciphers -/

/-- R102: StdEnc is the recurrence of the rule, under either reading of the taps. -/
def Obligations.StdEncIsTheStatedRecurrence : Prop :=
  ∀ (c : Cfg) (block : Word) (key : DWord) (b : Nat → Word) (k : Nat → DWord) (f : Nat → Bool),
    b 0 = block → k 0 = key →
    (∀ r < 528,
      f r = ((match c.stdTapReading with
          | .shiftMask => nlfAt (b r) 1 9 20 26 31
          | .literal => nlfAt (b r) 1 8 18 23 27) ^^ (b r).getLsbD 0 ^^ (b r).getLsbD 16 ^^ (k r).getLsbD 0) ∧
      (∀ j < 31, (b (r + 1)).getLsbD j = (b r).getLsbD (j + 1)) ∧ (b (r + 1)).getLsbD 31 = f r ∧
      k (r + 1) = (k r).rotateRight 1) →
    stdEnc c block key = b 528

/-- R103: StdDec is the recurrence of the rule, under either reading of the taps. -/
def Obligations.StdDecIsTheStatedRecurrence : Prop :=
  ∀ (c : Cfg) (block : Word) (key : DWord) (b : Nat → Word) (k : Nat → DWord) (f : Nat → Bool),
    b 0 = block → k 0 = key →
    (∀ r < 528,
      f r = ((match c.stdTapReading with
          | .shiftMask => nlfAt (b r) 0 8 19 25 30
          | .literal => nlfAt (b r) 0 7 17 22 26) ^^ (b r).getLsbD 31 ^^ (b r).getLsbD 15 ^^ (k r).getLsbD 15) ∧
      (∀ j < 31, (b (r + 1)).getLsbD (j + 1) = (b r).getLsbD j) ∧ (b (r + 1)).getLsbD 0 = f r ∧
      k (r + 1) = (k r).rotateLeft 1) →
    stdDec c block key = b 528

/-- R104: the involution law, under either reading. -/
def Obligations.StandardCipherIsInvertible : Prop :=
  ∀ (c : Cfg) (b : Word) (k : DWord), stdDec c (stdEnc c b k) k = b ∧ stdEnc c (stdDec c b k) k = b

/-- R105: which key bit each round reads, and where the internal key copy ends. -/
def Obligations.KeyScheduleReadsEveryBit : Prop :=
  ∀ (t : StdTaps) (b : Word) (k : DWord),
    (∀ r < 528, (times (encRound t) r (b, k)).2.getLsbD 0 = k.getLsbD (r % 64)) ∧
    (∀ j < 528, (times (decRound t) j (b, k)).2.getLsbD 15 = k.getLsbD ((15 + 64 * 9 - j) % 64)) ∧
    (times (encRound t) 528 (b, k)).2 = k.rotateRight 16 ∧ (times (decRound t) 528 (b, k)).2 = k.rotateLeft 16 ∧
    (∀ (i : Instr) (s u : State), exec i s = .next u → u.key = s.key) ∧ ∀ s : State, (tickTurn s).key = s.key

/-- R132 at the default taps: 66 outer rounds from index 1 downward, 8 inner steps each, every step as the rule writes it. -/
def Obligations.ShiftLeftIsTheStatedRecurrence : Prop :=
  ∀ (T : Table) (S : Nat → CState) (mix : Nat → Byte),
    (∀ o < 66, mix (8 * o) = T[(1 + 7 * o) % 8]'(Nat.mod_lt _ (by decide)) ∧
      ∀ i < 7, mix (8 * o + i + 1) = mix (8 * o + i) <<< 1) →
    (∀ n < 528, IsLeftStep (mix n) (S n) (S (n + 1))) →
    shiftLeft cfg (S 0) T = S 528

/-- R133 at the default taps: 66 outer rounds from index 0 upward, 8 inner steps each, every step as the rule writes it. -/
def Obligations.ShiftRightIsTheStatedRecurrence : Prop :=
  ∀ (T : Table) (S : Nat → CState) (mix : Nat → Byte),
    (∀ o < 66, mix (8 * o) = T[o % 8]'(Nat.mod_lt _ (by decide)) ∧
      ∀ i < 7, mix (8 * o + i + 1) = mix (8 * o + i) >>> 1) →
    (∀ n < 528, IsRightStep (mix n) (S n) (S (n + 1))) →
    shiftRight cfg (S 0) T = S 528

/-- R134: every tap record that meets constraints 1 to 6 gives the inverse law, and the default record does. -/
def Obligations.ScrambleDirectionsAreInverse : Prop :=
  (∀ (c : Cfg) (S : CState) (T : Table), c.scrLeft.invertible c.scrRight = true →
    shiftLeft c (shiftRight c S T) T = S ∧ shiftRight c (shiftLeft c S T) T = S) ∧
  cfg.scrLeft.invertible cfg.scrRight = true

/-- R135: at the defaults the two directions are the StandardCipher under the little-endian maps. -/
def Obligations.ScrambleEqualsStandardCipher : Prop :=
  ∀ (S : CState) (T : Table),
    shiftRight cfg S T = le4 (stdEnc cfg (unle4 S) (unle8 T)) ∧
      shiftLeft cfg S T = le4 (stdDec cfg (unle4 S) (unle8 T))

/-- R138: the seed is the plaintext32 of the source, and R178's ground: it is injective in the counter. -/
def Obligations.PlaintextSeedIsTheStatedWord : Prop :=
  ∀ (serial : BitVec 28) (counter : BitVec 16) (button : Byte),
    unle4 (ptSeed (serial.extractLsb' 0 8) counter button) =
      counter.setWidth 32 ||| (((serial.setWidth 32 <<< 6) &&& 0xFF) <<< 16) |||
        ((((button &&& 0xF0).setWidth 32) ||| ((serial.setWidth 32 >>> 2) &&& 0x03)) <<< 24)

/-- R142: the check reads 10 bits and no more: one value in 256 of D2 and one in 4 of D3[1:0] passes. -/
def Obligations.IntegrityCheckTestsTenBits : Prop :=
  (∀ (ser0 : Byte) (D : CState),
    integrityOk ser0 D = true ↔
      (∀ b < 6, D.s2.getLsbD b = false) ∧ D.s2.getLsbD 6 = ser0.getLsbD 0 ∧ D.s2.getLsbD 7 = ser0.getLsbD 1 ∧
        D.s3.getLsbD 0 = ser0.getLsbD 2 ∧ D.s3.getLsbD 1 = ser0.getLsbD 3) ∧
  ∀ ser0 : Byte, ∃ (x : Byte) (y : BitVec 2), ∀ D : CState,
    integrityOk ser0 D = true ↔ D.s2 = x ∧ D.s3.extractLsb' 0 2 = y

/-- R143: decoding an encoded payload gives the counter and the button's high nibble back, for every key. -/
def Obligations.PayloadCipherRoundTrips : Prop :=
  ∀ (ser : SerialBytes) (counter : BitVec 16) (button : Byte) (DK : Table),
    let d := decPayload cfg ser (unle4 (encPayload cfg ser counter button DK).2) DK
    d.ok = true ∧ d.counter = counter ∧ d.button = button &&& 0xF0

/-- R177: BUILD followed by DECODE, the serial, the device key and PAYLOAD0 unchanged in between. -/
def Obligations.BuildThenDecodeRestoresCounter : Prop :=
  ∀ s t u v : State, s.seq.phase = .busy → exec .build s = .next t →
    u.seq.phase = .busy → u.serial = s.serial → u.dkey = s.dkey → u.payload0 = t.payload0 →
    exec .decode u = .next v →
      v.err = .none ∧ v.doneFlag = true ∧ v.decCounter = s.counter ∧ v.decButton = s.button &&& 0xF0 ∧
        v.readReg .decres = s.counter.setWidth 32 ||| ((s.button &&& 0xF0).setWidth 32 <<< 16)

/-- R178: two different counters give different ciphertexts. -/
def Obligations.CounterChangesCiphertext : Prop :=
  ∀ (serial : BitVec 28) (x y : BitVec 16) (button : Byte) (DK : Table), x ≠ y →
    (buildPayload cfg serial x button DK).2.1 ≠ (buildPayload cfg serial y button DK).2.1

/-! ## The pulse sequence -/

/-- R191: the 180 records by their index. -/
def Obligations.PulseRecordsStandAtTheirIndex : Prop :=
  ∀ P : PayloadBytes,
    (pulseSeq cfg P).length = 180 ∧
    (∀ k < 46, (pulseSeq cfg P)[k]? = some ⟨k % 2 == 1, 1⟩) ∧
    (pulseSeq cfg P)[46]? = some ⟨false, 20⟩ ∧
    (∀ n, ∀ h : n < 66, ∀ b : Bool, (P[n / 8]'(by omega)).getLsbD (n % 8) = b →
      (pulseSeq cfg P)[47 + 2 * n]? = some ⟨true, if b then 2 else 4⟩ ∧
      (pulseSeq cfg P)[48 + 2 * n]? = some ⟨false, if b then 4 else 2⟩) ∧
    (pulseSeq cfg P)[179]? = some ⟨false, 75⟩

/-- R193: the total duration, for every payload and every configuration whose durations are u32, and 537 at the
defaults. -/
def Obligations.PulseTotalIsIndependentOfPayload : Prop :=
  (∀ (c : Cfg) (P : PayloadBytes),
    c.headerGapTicks < 2 ^ 32 → c.shortTicks < 2 ^ 32 → c.longTicks < 2 ^ 32 → c.tailGapTicks < 2 ^ 32 →
      totalTicks (pulseSeq c P) =
        c.preambleTicks + c.headerGapTicks + c.payloadBits.val * (c.shortTicks + c.longTicks) + c.tailGapTicks ∧
      (pulseSeq c P).length = c.preambleTicks + 1 + 2 * c.payloadBits.val + 1) ∧
  (∀ P : PayloadBytes, totalTicks (pulseSeq cfg P) = 537)

/-- A PULSE that has just been accepted hands over all of L, in order, in as many transfers as L has records, and completes
with the last one (43_pulse_encoder.md R192, R195). -/
def Obligations.PulseEmitsEveryRecordThenCompletes : Prop :=
  ∀ (s : State) (ts : List Turn), s.seq.phase = .busy → s.running = some .pulse → s.seq.k = 0 → s.seq.recs ≠ [] →
    s.turns = List.replicate s.seq.recs.length .transfer ++ ts →
    (∀ n < s.seq.recs.length, ∃ t, Host.Core.run core n s = .next t ∧
      t.out = s.out ++ s.seq.recs.take n ∧ t.seq.phase = .busy ∧ t.seq.k = n) ∧
    ∃ t, Host.Core.run core s.seq.recs.length s = .next t ∧
      t.out = s.out ++ s.seq.recs ∧ t.seq.phase = .idle ∧ t.doneFlag = true ∧ t.err = .none ∧ t.port.valid = false ∧
      t.turns = ts ∧ ∀ r : Reg, r ≠ .status → t.readReg r = s.readReg r

/-- R275: without a transfer and without a reset, a PULSE stays where it is and the block stays Busy; also when the schedule has
run out. -/
def Obligations.PulseWithoutTransferNeverCompletes : Prop :=
  ∀ s t : State, s.seq.phase = .busy → s.running = some .pulse →
    s.turns.head? ∈ [none, some .complete, some .tick, some .host] →
    (∀ a hs, s.host = .bus a :: hs → ¬(a.we = true ∧ a.addr = 0x08 ∧ a.wdata.getLsbD 1 = true)) →
    step s = .next t →
      t.seq = s.seq ∧ t.port = s.port ∧ t.out = s.out ∧
        ∀ r : Reg, r.guarded = true → t.readReg r = s.readReg r

/-! ## The register window -/

/-- R62, R63: a misaligned or a partial access is refused, recorded, and changes nothing else. That an access that is both is
recorded as both (assumption log 8), and that a reset keeps what is recorded (assumption log 11), are the model's readings. -/
def Obligations.BadAccessIsRefusedAndRecorded : Prop :=
  (∀ we, (Reply.refused we).busErr = true) ∧ (Reply.refused false).rdata = some 0 ∧
  (∀ s t : State, step s = .next t → ∀ f ∈ s.faults, f ∈ t.faults) ∧
  ∀ (a : BusAccess) (s : State), a.addr.extractLsb' 0 2 ≠ 0 ∨ a.be ≠ 0b1111 →
    ∃ F : List BusFault,
      access a s = .next { s with faults := F, reply := .refused a.we } ∧
      (a.addr.extractLsb' 0 2 ≠ 0 → .misaligned a.addr ∈ F) ∧
      (a.be ≠ 0b1111 → .partialAccess a.addr ∈ F) ∧
      (∀ f ∈ s.faults, f ∈ F) ∧
      ∀ f ∈ F, f ∈ s.faults ∨
        (f = .misaligned a.addr ∧ a.addr.extractLsb' 0 2 ≠ 0) ∨ (f = .partialAccess a.addr ∧ a.be ≠ 0b1111)

/-- R270: while Busy a write to CMD or a data register is dropped with WERR; STATUS and CTRL take effect; read-only and
reserved offsets ignore a write, Busy or not. -/
def Obligations.WritesAreDroppedWhileBusy : Prop :=
  ∀ (s : State) (v : Word),
    (s.seq.phase = .busy →
      (∀ r ∈ [Reg.cmd, .block, .keyLo, .keyHi, .dkeyLo, .dkeyHi, .serial, .cntbtn, .state, .payload0, .payload1, .payload2],
        access ⟨true, r.offset, 0b1111, v⟩ s = .next { s with reply := .written, werr := true }) ∧
      access ⟨true, 0x04, 0b1111, v⟩ s =
        .next { s with
          reply := .written, doneFlag := s.doneFlag && !v.getLsbD 1, werr := s.werr && !v.getLsbD 5 } ∧
      (v.getLsbD 1 = false →
        access ⟨true, 0x08, 0b1111, v⟩ s = .next { s with reply := .written, doneIe := v.getLsbD 0 }) ∧
      (v.getLsbD 1 = true → ∃ t, access ⟨true, 0x08, 0b1111, v⟩ s = .next t ∧ AtReset t)) ∧
    (∀ r ∈ [Reg.decres, .kt0, .kt1, .kt2, .kt3],
      access ⟨true, r.offset, 0b1111, v⟩ s = .next { s with reply := .written }) ∧
    ∀ off : Byte, off.extractLsb' 0 2 = 0 → off = 0x3C ∨ 0x50 ≤ off →
      access ⟨true, off, 0b1111, v⟩ s = .next { s with reply := .written }

/-- R272: a read of the running command's write set is a draw, for every value the free constant may have; any other read
returns the register's value; STATUS shows BUSY = 1 (free value: assumption log 1). -/
def Obligations.ReadsWhileBusy : Prop :=
  ∀ (s : State) (i : Instr) (r : Reg) (v : Word), s.seq.phase = .busy → s.running = some i →
    (r ∈ writeSet i →
      access ⟨false, r.offset, 0b1111, v⟩ s =
        .next { s with reply := .data (Config.freeRead s.draws), draws := s.draws + 1 }) ∧
    (r ∉ writeSet i → access ⟨false, r.offset, 0b1111, v⟩ s = .next { s with reply := .data (s.readReg r) }) ∧
    (s.readReg .status).getLsbD 0 = true

/-- R64: a read changes nothing; two reads with nothing in between give the same answer, unless the register is in a running
command's write set; writing the value a register holds changes nothing outside CMD, STATUS and CTRL, unless it is dropped;
a write that is not dropped changes the register alone. -/
def Obligations.ReadsHaveNoSideEffects : Prop :=
  (∀ (off : Byte) (v : Word) (s : State), off.extractLsb' 0 2 = 0 →
    ∃ (x : Word) (d : Nat), access ⟨false, off, 0b1111, v⟩ s = .next { s with reply := .data x, draws := d }) ∧
  (∀ (off : Byte) (v : Word) (s t : State), off.extractLsb' 0 2 = 0 →
    (∀ (r : Reg) (i : Instr), r.offset = off → s.seq.phase = .busy → s.running = some i → r ∉ writeSet i) →
    access ⟨false, off, 0b1111, v⟩ s = .next t → access ⟨false, off, 0b1111, v⟩ t = .next t) ∧
  (∀ (r : Reg) (s : State), s.seq.phase = .idle ∨ r.guarded = false → r ≠ .cmd → r ≠ .status → r ≠ .ctrl →
    access ⟨true, r.offset, 0b1111, s.readReg r⟩ s = .next { s with reply := .written }) ∧
  (∀ (r : Reg) (v : Word) (s t : State), s.seq.phase = .idle ∨ r.guarded = false → r ≠ .cmd → r ≠ .status → r ≠ .ctrl →
    access ⟨true, r.offset, 0b1111, v⟩ s = .next t →
      (∀ r', r' ≠ r → t.readReg r' = s.readReg r') ∧ t.seq = s.seq ∧ t.port = s.port ∧ sameOutside s t)

/-- R23, R28 to R36: the offsets of the window, what each reads and what each write does in an Idle block, the 64-bit registers
and the payload bytes as their words give them; reserved bits read zero and are not kept, a write changes no other register;
the reserved offsets read zero and ignore writes, whatever BUSY is. -/
def Obligations.RegisterMapReadsAndWrites : Prop :=
  (∀ (off : Byte) (v : Word) (s : State), off.extractLsb' 0 2 = 0 → off = 0x3C ∨ 0x50 ≤ off →
    access ⟨false, off, 0b1111, v⟩ s = .next { s with reply := .data 0 } ∧
      access ⟨true, off, 0b1111, v⟩ s = .next { s with reply := .written }) ∧
  (∀ (r : Reg) (v : Word) (s : State), s.seq.phase = .idle →
    r ∈ [Reg.block, .keyLo, .keyHi, .dkeyLo, .dkeyHi, .serial, .cntbtn, .state, .payload0, .payload1, .payload2] →
    ∃ t, access ⟨true, r.offset, 0b1111, v⟩ s = .next t ∧
      t.readReg r = v &&&
        (match r with
        | .serial => 0x0FFFFFFF
        | .cntbtn => 0x00FFFFFF
        | .payload2 => 0x000000FF
        | _ => 0xFFFFFFFF) ∧
      (∀ r', r' ≠ r → t.readReg r' = s.readReg r') ∧
      t.seq = s.seq ∧ t.port = s.port ∧ sameOutside s t) ∧
  (∀ x ∈ [(Reg.cmd, (0x00 : Byte)), (.status, 0x04), (.ctrl, 0x08), (.block, 0x0C), (.keyLo, 0x10), (.keyHi, 0x14),
      (.dkeyLo, 0x18), (.dkeyHi, 0x1C), (.serial, 0x20), (.cntbtn, 0x24), (.state, 0x28), (.decres, 0x2C), (.payload0, 0x30),
      (.payload1, 0x34), (.payload2, 0x38), (.kt0, 0x40), (.kt1, 0x44), (.kt2, 0x48), (.kt3, 0x4C)],
    x.1.offset = x.2) ∧
  (∀ (s : State) (v : Word), s.seq.phase = .idle →
    ∀ x ∈ [((0x00 : Byte), (0 : Word)), (0x04, s.readReg .status), (0x08, s.readReg .ctrl), (0x0C, s.block),
        (0x10, s.keyLo), (0x14, s.keyHi), (0x18, s.dkeyLo), (0x1C, s.dkeyHi), (0x20, (0 : BitVec 4) ++ s.serial),
        (0x24, (0 : Byte) ++ s.button ++ s.counter), (0x28, s.cstate), (0x2C, (0 : Byte) ++ s.decButton ++ s.decCounter),
        (0x30, s.payload0), (0x34, s.payload1), (0x38, (0 : BitVec 24) ++ s.payload2),
        (0x40, s.kt[3] ++ s.kt[2] ++ s.kt[1] ++ s.kt[0]), (0x44, s.kt[7] ++ s.kt[6] ++ s.kt[5] ++ s.kt[4]),
        (0x48, s.kt[11] ++ s.kt[10] ++ s.kt[9] ++ s.kt[8]), (0x4C, s.kt[15] ++ s.kt[14] ++ s.kt[13] ++ s.kt[12])],
      access ⟨false, x.1, 0b1111, v⟩ s = .next { s with reply := .data x.2 }) ∧
  (∀ (s : State) (v : Word), s.seq.phase = .idle →
    ∀ x ∈ [((0x0C : Byte), { s with block := v }), (0x10, { s with keyLo := v }), (0x14, { s with keyHi := v }),
        (0x18, { s with dkeyLo := v }), (0x1C, { s with dkeyHi := v }), (0x20, { s with serial := v.extractLsb' 0 28 }),
        (0x24, { s with counter := v.extractLsb' 0 16, button := v.extractLsb' 16 8 }), (0x28, { s with cstate := v }),
        (0x30, { s with payload0 := v }), (0x34, { s with payload1 := v }),
        (0x38, { s with payload2 := v.extractLsb' 0 8 })],
      access ⟨true, x.1, 0b1111, v⟩ s = .next { x.2 with reply := .written }) ∧
  ∀ s : State,
    s.key = (s.keyHi.setWidth 64 <<< 32) ||| s.keyLo.setWidth 64 ∧
    s.dkey = (s.dkeyHi.setWidth 64 <<< 32) ||| s.dkeyLo.setWidth 64 ∧
    (∀ i, ∀ h : i < 4, s.payload[i] = s.payload0.extractLsb' (8 * i) 8 ∧
      s.payload[4 + i] = s.payload1.extractLsb' (8 * i) 8) ∧ s.payload[8] = s.payload2

/-- R25: the fields of STATUS and its write. -/
def Obligations.StatusFieldsAndWrites : Prop :=
  ∀ (s : State) (v : Word),
    (s.readReg .status).getLsbD 0 = (s.seq.phase == .busy) ∧ (s.readReg .status).getLsbD 1 = s.doneFlag ∧
    (s.readReg .status).extractLsb' 2 3 =
      (match s.err with | .none => 0 | .integrity => 1 | .invalidButton => 2 | .illegalCmd => 3) ∧
    (s.readReg .status).getLsbD 5 = s.werr ∧ (s.readReg .status).extractLsb' 6 2 = 0 ∧
    (s.readReg .status).extractLsb' 8 4 = s.lastop ∧ (s.readReg .status).extractLsb' 12 20 = 0 ∧
    access ⟨true, 0x04, 0b1111, v⟩ s =
      .next { s with
        reply := .written
        doneFlag := if v.getLsbD 1 then false else s.doneFlag
        werr := if v.getLsbD 5 then false else s.werr }

/-- R26: CTRL, whatever BUSY is; SRST wins over DONE_IE of the same write. -/
def Obligations.CtrlWritesAndSoftReset : Prop :=
  ∀ (s : State) (v : Word),
    (s.readReg .ctrl).getLsbD 0 = s.doneIe ∧ (∀ b, 1 ≤ b → (s.readReg .ctrl).getLsbD b = false) ∧
    (v.getLsbD 1 = false →
      access ⟨true, 0x08, 0b1111, v⟩ s = .next { s with reply := .written, doneIe := v.getLsbD 0 }) ∧
    (v.getLsbD 1 = true →
      ∃ t, access ⟨true, 0x08, 0b1111, v⟩ s = .next t ∧ AtReset t ∧ t.doneIe = false)

/-- R230: irq and the four ways it falls; an error completion raises it as well. -/
def Obligations.InterruptFollowsDone : Prop :=
  ∀ s : State,
    s.irq = (s.doneFlag && s.doneIe) ∧
    (∀ v t, v.getLsbD 1 = true → access ⟨true, 0x04, 0b1111, v⟩ s = .next t → t.irq = false) ∧
    (∀ v t, v.getLsbD 0 = false → access ⟨true, 0x08, 0b1111, v⟩ s = .next t → t.irq = false) ∧
    (∀ w t, s.seq.phase = .idle → legal w = true → writeCmd w s = .next t → t.seq.phase = .busy → t.irq = false) ∧
    (resetBlock s).irq = false ∧
    (∀ i t, Inv s → exec i s = .next t → t.err ≠ .none → t.irq = s.doneIe) ∧
    (∀ w t, s.seq.phase = .idle → legal w = false → writeCmd w s = .next t → t.irq = s.doneIe)

/-! ## Reset -/

/-- R260, R262: a reset edge, at any time, whatever runs; an access presented in it is ignored and a read returns 0; a write
of CTRL with SRST = 1 leaves the block exactly as a reset edge leaves it. -/
def Obligations.ResetClearsTheBlock : Prop :=
  (∀ (s : State) (ts : List Turn), s.turns = .hardReset :: ts →
    ∃ t, step s = .next t ∧ AtReset t) ∧
  (∀ (s : State) (ts : List Turn) (a : BusAccess) (hs : List HostAction),
    s.turns = .hostInReset :: ts → s.host = .bus a :: hs →
      ∃ t, step s = .next t ∧ AtReset t ∧ (a.we = false → t.reply.rdata = some 0)) ∧
  (∀ (s : State) (v : Word), v.getLsbD 1 = true →
    ∃ t u, access ⟨true, 0x08, 0b1111, v⟩ s = .next t ∧ takeTurn .hardReset s = .next u ∧
      t = { u with reply := .written } ∧ t.port.valid = false)

/-- R263: straight after reset STD_ENC gives BLOCK = 0 and EXPAND the table of the zero corner case. -/
def Obligations.CommandsComputeOnZeroAfterReset : Prop :=
  AtReset State.reset ∧ State.reset.doneIe = false ∧ State.reset.doneFlag = false ∧
  (∀ s t : State, exec .stdEnc State.reset = .next s → exec .stdEnc s = .next t → t.block = 0) ∧
  (∀ s t : State, exec .expand State.reset = .next s → exec .expand s = .next t →
    t.readReg .kt0 = 0xBC54A53A ∧ t.readReg .kt1 = 0x183DBA7E ∧ t.readReg .kt2 = 0xBC54A53A ∧
      t.readReg .kt3 = 0x183DBA7E)

/-! ## The whole machine -/

/-- R238: while Idle nothing changes except through the host's accesses and reset. -/
def Obligations.IdleBlockDoesNotMove : Prop :=
  (∀ (s : State) (turn : Turn) (ts : List Turn), s.seq.phase = .idle → s.turns = turn :: ts →
    turn = .complete ∨ turn = .tick ∨ turn = .transfer → step s = .next { s with turns := ts }) ∧
  ∀ s : State, s.seq.phase = .idle → s.turns = [] → step s = .next s

/-- While a command runs its inputs stand: every data register, KT and L (20_memory.md R71(b), 70_reset_and_hazards.md
R270). -/
def Obligations.InputsStandWhileBusy : Prop :=
  ∀ s t : State, s.seq.phase = .busy → step s = .next t → t.seq.phase = .busy →
    (∀ r : Reg, r ≠ .status → r ≠ .ctrl → t.readReg r = s.readReg r) ∧ t.running = s.running ∧
      (s.running = some .pulse → t.seq.recs = s.seq.recs)

/-- No command writes KEY, SERIAL or CNTBTN, the counter above all: only the host does, or a reset (10_state.md R28, R31;
70_reset_and_hazards.md R265). Nor does a command draw a free value (00_scope.md R18). -/
def Obligations.OnlyTheHostWritesKeySerialCounter : Prop :=
  ∀ s t : State, s.turns.head? ∈ [none, some .complete, some .tick, some .transfer] → step s = .next t →
    t.keyLo = s.keyLo ∧ t.keyHi = s.keyHi ∧ t.serial = s.serial ∧ t.counter = s.counter ∧ t.button = s.button ∧
      t.doneIe = s.doneIe ∧ t.werr = s.werr ∧ t.draws = s.draws

/-- R137: the five key-table writers write `ExpandKT` of SERIAL and DKEY, and no other command and no host write changes KT;
a reset clears it. -/
def Obligations.OnlyFiveCommandsWriteKeyTable : Prop :=
  (∀ (i : Instr) (s t : State), i ∈ [Instr.expand, .encPayload, .decPayload, .build, .decode] → s.seq.phase = .busy →
    exec i s = .next t → t.kt = expandKT cfg (serialBytes s.serial) (le8 s.dkey)) ∧
  (∀ s t : State, Inv s → step s = .next t → t.kt ≠ s.kt →
    (s.seq.phase = .busy ∧ t.seq.phase = .idle ∧ t.kt = expandKT cfg (serialBytes s.serial) (le8 s.dkey) ∧
      ∃ i ∈ [Instr.expand, .encPayload, .decPayload, .build, .decode], s.running = some i) ∨
    AtReset t)

/-- WERR is set by a dropped host write and by nothing else, and no bus fault or record is ever taken back
(10_state.md R38, 20_memory.md R62, R71(d); that a reset keeps both is the model's reading, assumption log 11). -/
def Obligations.WerrFaultsAndOutputHistory : Prop :=
  ∀ s t : State, step s = .next t →
    (s.werr = false → t.werr = true →
      s.seq.phase = .busy ∧ ∃ ts a hs r, s.turns = .host :: ts ∧ s.host = .bus a :: hs ∧ a.we = true ∧ a.faults = [] ∧
        a.addr = Reg.offset r ∧ r.guarded = true) ∧
    (∀ f ∈ s.faults, f ∈ t.faults) ∧
    ∃ l : List Record, l.length ≤ 1 ∧ t.out = s.out ++ l

/-- The invariant holds at reset. -/
def Obligations.InvariantHoldsAtReset : Prop := Inv State.reset

/-- Every step keeps the invariant: the stream port shows record k of the payload's sequence exactly while PULSE runs, the
latched word of a running command is legal, STATUS is as acceptance left it, and the bit-serial datapath is where its
counters say, on inputs that no write can have changed. Its working registers are the model's (assumption log 6). -/
def Obligations.StepKeepsTheInvariant : Prop :=
  ∀ s t : State, Inv s → step s = .next t → Inv t

/-- The last cycle of the bit-serial schedule commits what Complete commits (70_reset_and_hazards.md R273, R280; the model has
both, assumption log 7). -/
def Obligations.LastCycleCommitsWhatCompleteCommits : Prop :=
  ∀ (s : State) (i : Instr), Inv s → s.seq.phase = .busy → s.running = some i → i ≠ .pulse →
    s.seq.pass = lastPass i → s.seq.r = 527 →
      ∃ t, exec i s = .next t ∧ visible (tickTurn s) = visible t

/-- R280 for the commands of the bit-serial schedule: accepted, a command is Busy for the cycles before the N-th, and the
N-th completes it with the results of Complete (assumption log 7). -/
def Obligations.CommandsTakeTheirLatency : Prop :=
  latency .stdEnc = 528 ∧ latency .stdDec = 528 ∧ (∀ t, latency (.scrL t) = 528) ∧ (∀ t, latency (.scrR t) = 528) ∧
  latency .derive = 1056 ∧ latency .expand = 1056 ∧ latency .encPayload = 1584 ∧ latency .decPayload = 1584 ∧
  latency .build = 1584 ∧ latency .decode = 1584 ∧
  ∀ (i : Instr) (s t u : State), s.seq.phase = .idle → i ≠ .nop → i ≠ .pulse → exec i s = .next t →
    t.seq.phase = .busy → exec i t = .next u →
      (∀ n < latency i, (times tickTurn n t).seq.phase = .busy) ∧ visible (times tickTurn (latency i) t) = visible u

/-- Complete is weakly fair: a command other than PULSE completes, or is abandoned by a reset, at the latest in the step after the
schedule has run out, whatever the schedule and the host's accesses are (70_reset_and_hazards.md R273, R275; that a schedule
which has run out goes on with Complete is the model's form of it, assumption log 5). -/
def Obligations.EveryCommandEventuallyCompletes : Prop :=
  ∀ (s : State) (i : Instr), s.seq.phase = .busy → s.running = some i → i ≠ .pulse →
    ∃ n ≤ s.turns.length + 1,
      (∀ m < n, ∃ u, Host.Core.run core m s = .next u ∧ u.seq.phase = .busy ∧ u.running = some i) ∧
      ∃ t, Host.Core.run core n s = .next t ∧ t.seq.phase = .idle
end

