-- ==== Sys2Proof/Laws/Bytes.lean ====
section
/-! SUPPORT. The bits of the byte views, and that the little-endian maps of 00_scope.md R12 undo each other. -/

namespace Sys2Proof.Machine

theorem getLsbD_byteOf (w : Word) (i j : Nat) :
    (byteOf w i).getLsbD j = (decide (j < 8) && w.getLsbD (8 * i + j)) := by
  simp [byteOf, BitVec.getLsbD_extractLsb']

theorem getLsbD_byteOf64 (k : DWord) (i j : Nat) :
    (byteOf64 k i).getLsbD j = (decide (j < 8) && k.getLsbD (8 * i + j)) := by
  simp [byteOf64, BitVec.getLsbD_extractLsb']

theorem getLsbD_wordOfBytes (b0 b1 b2 b3 : Byte) (i : Nat) :
    (wordOfBytes b0 b1 b2 b3).getLsbD i =
      if i < 8 then b0.getLsbD i else if i < 16 then b1.getLsbD (i - 8)
      else if i < 24 then b2.getLsbD (i - 16) else b3.getLsbD (i - 24) := by
  simp only [wordOfBytes, BitVec.getLsbD_append, Nat.sub_sub]
  by_cases h0 : i < 8 <;> by_cases h1 : i < 16 <;> by_cases h2 : i < 24 <;> simp [h0, h1, h2] <;> try omega
  all_goals (split <;> try omega)
  all_goals (try split)
  all_goals first | rfl | omega

theorem wordOfBytes_byteOf (w : Word) : wordOfBytes (byteOf w 0) (byteOf w 1) (byteOf w 2) (byteOf w 3) = w := by
  apply BitVec.eq_of_getLsbD_eq
  intro i hi
  rw [getLsbD_wordOfBytes]
  simp only [getLsbD_byteOf]
  repeat' split
  · simp_all
  · simp [show i - 8 < 8 by omega, show 8 + (i - 8) = i by omega]
  · simp [show i - 16 < 8 by omega, show 16 + (i - 16) = i by omega]
  · simp [show i - 24 < 8 by omega, show 24 + (i - 24) = i by omega]

theorem byteOf_wordOfBytes (b0 b1 b2 b3 : Byte) :
    byteOf (wordOfBytes b0 b1 b2 b3) 0 = b0 ∧ byteOf (wordOfBytes b0 b1 b2 b3) 1 = b1 ∧
      byteOf (wordOfBytes b0 b1 b2 b3) 2 = b2 ∧ byteOf (wordOfBytes b0 b1 b2 b3) 3 = b3 := by
  refine ⟨?_, ?_, ?_, ?_⟩ <;> apply BitVec.eq_of_getLsbD_eq <;> intro j hj <;>
    simp only [getLsbD_byteOf, getLsbD_wordOfBytes]
  · simp [hj]
  · simp [hj, show ¬8 + j < 8 by omega, show 8 + j < 16 by omega]
  · simp [hj, show ¬16 + j < 8 by omega, show ¬16 + j < 16 by omega, show 16 + j < 24 by omega]
  · simp [hj, show ¬24 + j < 8 by omega, show ¬24 + j < 16 by omega, show ¬24 + j < 24 by omega]

@[simp] theorem unle4_le4 (w : Word) : unle4 (le4 w) = w := wordOfBytes_byteOf w

@[simp] theorem le4_unle4 (S : CState) : le4 (unle4 S) = S := by
  obtain ⟨h0, h1, h2, h3⟩ := byteOf_wordOfBytes S.s0 S.s1 S.s2 S.s3
  simp only [le4, unle4, h0, h1, h2, h3]

theorem unle4_injective {S S' : CState} (h : unle4 S = unle4 S') : S = S' := by
  rw [← le4_unle4 S, ← le4_unle4 S', h]

/-- `f` may be taken off the inner end as well. -/
theorem times_succ_apply {α : Type} (f : α → α) (n : Nat) (x : α) : times f (n + 1) x = times f n (f x) := by
  induction n with
  | zero => rfl
  | succ n ih => rw [times, ih, times]

theorem times_add {α : Type} (f : α → α) (m n : Nat) (x : α) : times f (m + n) x = times f m (times f n x) := by
  induction m with
  | zero => simp [times]
  | succ m ih => rw [Nat.succ_add, times, ih, times]

/-- Repetition of a step that undoes another undoes its repetition. -/
theorem times_leftInverse {α : Type} {f g : α → α} (h : ∀ x, g (f x) = x) (n : Nat) (x : α) :
    times g n (times f n x) = x := by
  induction n generalizing x with
  | zero => rfl
  | succ n ih => rw [times_succ_apply f, times, ih, h]

end Sys2Proof.Machine
end

