-- ==== Sys2Proof/Laws/State.lean ====
section
/-! SUPPORT. One lemma per field per shared update of the state, so that no later proof unfolds a record update. -/

namespace Sys2Proof.Machine

/-! `presented` writes DONE, ERR and LASTOP alone. -/

@[simp] theorem presented_block (op : BitVec 4) (s : State) : (presented op s).block = s.block := rfl
@[simp] theorem presented_keyLo (op : BitVec 4) (s : State) : (presented op s).keyLo = s.keyLo := rfl
@[simp] theorem presented_keyHi (op : BitVec 4) (s : State) : (presented op s).keyHi = s.keyHi := rfl
@[simp] theorem presented_dkeyLo (op : BitVec 4) (s : State) : (presented op s).dkeyLo = s.dkeyLo := rfl
@[simp] theorem presented_dkeyHi (op : BitVec 4) (s : State) : (presented op s).dkeyHi = s.dkeyHi := rfl
@[simp] theorem presented_serial (op : BitVec 4) (s : State) : (presented op s).serial = s.serial := rfl
@[simp] theorem presented_counter (op : BitVec 4) (s : State) : (presented op s).counter = s.counter := rfl
@[simp] theorem presented_button (op : BitVec 4) (s : State) : (presented op s).button = s.button := rfl
@[simp] theorem presented_cstate (op : BitVec 4) (s : State) : (presented op s).cstate = s.cstate := rfl
@[simp] theorem presented_decCounter (op : BitVec 4) (s : State) : (presented op s).decCounter = s.decCounter := rfl
@[simp] theorem presented_decButton (op : BitVec 4) (s : State) : (presented op s).decButton = s.decButton := rfl
@[simp] theorem presented_payload0 (op : BitVec 4) (s : State) : (presented op s).payload0 = s.payload0 := rfl
@[simp] theorem presented_payload1 (op : BitVec 4) (s : State) : (presented op s).payload1 = s.payload1 := rfl
@[simp] theorem presented_payload2 (op : BitVec 4) (s : State) : (presented op s).payload2 = s.payload2 := rfl
@[simp] theorem presented_kt (op : BitVec 4) (s : State) : (presented op s).kt = s.kt := rfl
@[simp] theorem presented_doneFlag (op : BitVec 4) (s : State) : (presented op s).doneFlag = false := rfl
@[simp] theorem presented_err (op : BitVec 4) (s : State) : (presented op s).err = .none := rfl
@[simp] theorem presented_werr (op : BitVec 4) (s : State) : (presented op s).werr = s.werr := rfl
@[simp] theorem presented_lastop (op : BitVec 4) (s : State) : (presented op s).lastop = op := rfl
@[simp] theorem presented_doneIe (op : BitVec 4) (s : State) : (presented op s).doneIe = s.doneIe := rfl
@[simp] theorem presented_seq (op : BitVec 4) (s : State) : (presented op s).seq = s.seq := rfl
@[simp] theorem presented_port (op : BitVec 4) (s : State) : (presented op s).port = s.port := rfl
@[simp] theorem presented_out (op : BitVec 4) (s : State) : (presented op s).out = s.out := rfl
@[simp] theorem presented_faults (op : BitVec 4) (s : State) : (presented op s).faults = s.faults := rfl
@[simp] theorem presented_host (op : BitVec 4) (s : State) : (presented op s).host = s.host := rfl
@[simp] theorem presented_reply (op : BitVec 4) (s : State) : (presented op s).reply = s.reply := rfl
@[simp] theorem presented_turns (op : BitVec 4) (s : State) : (presented op s).turns = s.turns := rfl
@[simp] theorem presented_draws (op : BitVec 4) (s : State) : (presented op s).draws = s.draws := rfl

/-! `complete` writes the phase, DONE and ERR alone. -/

@[simp] theorem complete_block (code : ErrCode) (s : State) : (complete code s).block = s.block := rfl
@[simp] theorem complete_keyLo (code : ErrCode) (s : State) : (complete code s).keyLo = s.keyLo := rfl
@[simp] theorem complete_keyHi (code : ErrCode) (s : State) : (complete code s).keyHi = s.keyHi := rfl
@[simp] theorem complete_dkeyLo (code : ErrCode) (s : State) : (complete code s).dkeyLo = s.dkeyLo := rfl
@[simp] theorem complete_dkeyHi (code : ErrCode) (s : State) : (complete code s).dkeyHi = s.dkeyHi := rfl
@[simp] theorem complete_serial (code : ErrCode) (s : State) : (complete code s).serial = s.serial := rfl
@[simp] theorem complete_counter (code : ErrCode) (s : State) : (complete code s).counter = s.counter := rfl
@[simp] theorem complete_button (code : ErrCode) (s : State) : (complete code s).button = s.button := rfl
@[simp] theorem complete_cstate (code : ErrCode) (s : State) : (complete code s).cstate = s.cstate := rfl
@[simp] theorem complete_decCounter (code : ErrCode) (s : State) : (complete code s).decCounter = s.decCounter := rfl
@[simp] theorem complete_decButton (code : ErrCode) (s : State) : (complete code s).decButton = s.decButton := rfl
@[simp] theorem complete_payload0 (code : ErrCode) (s : State) : (complete code s).payload0 = s.payload0 := rfl
@[simp] theorem complete_payload1 (code : ErrCode) (s : State) : (complete code s).payload1 = s.payload1 := rfl
@[simp] theorem complete_payload2 (code : ErrCode) (s : State) : (complete code s).payload2 = s.payload2 := rfl
@[simp] theorem complete_kt (code : ErrCode) (s : State) : (complete code s).kt = s.kt := rfl
@[simp] theorem complete_doneFlag (code : ErrCode) (s : State) : (complete code s).doneFlag = true := rfl
@[simp] theorem complete_err (code : ErrCode) (s : State) : (complete code s).err = code := rfl
@[simp] theorem complete_werr (code : ErrCode) (s : State) : (complete code s).werr = s.werr := rfl
@[simp] theorem complete_lastop (code : ErrCode) (s : State) : (complete code s).lastop = s.lastop := rfl
@[simp] theorem complete_doneIe (code : ErrCode) (s : State) : (complete code s).doneIe = s.doneIe := rfl
@[simp] theorem complete_seq (code : ErrCode) (s : State) : (complete code s).seq = { s.seq with phase := .idle } := rfl
@[simp] theorem complete_port (code : ErrCode) (s : State) : (complete code s).port = s.port := rfl
@[simp] theorem complete_out (code : ErrCode) (s : State) : (complete code s).out = s.out := rfl
@[simp] theorem complete_faults (code : ErrCode) (s : State) : (complete code s).faults = s.faults := rfl
@[simp] theorem complete_host (code : ErrCode) (s : State) : (complete code s).host = s.host := rfl
@[simp] theorem complete_reply (code : ErrCode) (s : State) : (complete code s).reply = s.reply := rfl
@[simp] theorem complete_turns (code : ErrCode) (s : State) : (complete code s).turns = s.turns := rfl
@[simp] theorem complete_draws (code : ErrCode) (s : State) : (complete code s).draws = s.draws := rfl

/-! `accept` writes DONE, ERR, LASTOP and the sequencer alone. -/

@[simp] theorem accept_block (i : Instr) (s : State) : (accept i s).block = s.block := rfl
@[simp] theorem accept_keyLo (i : Instr) (s : State) : (accept i s).keyLo = s.keyLo := rfl
@[simp] theorem accept_keyHi (i : Instr) (s : State) : (accept i s).keyHi = s.keyHi := rfl
@[simp] theorem accept_dkeyLo (i : Instr) (s : State) : (accept i s).dkeyLo = s.dkeyLo := rfl
@[simp] theorem accept_dkeyHi (i : Instr) (s : State) : (accept i s).dkeyHi = s.dkeyHi := rfl
@[simp] theorem accept_serial (i : Instr) (s : State) : (accept i s).serial = s.serial := rfl
@[simp] theorem accept_counter (i : Instr) (s : State) : (accept i s).counter = s.counter := rfl
@[simp] theorem accept_button (i : Instr) (s : State) : (accept i s).button = s.button := rfl
@[simp] theorem accept_cstate (i : Instr) (s : State) : (accept i s).cstate = s.cstate := rfl
@[simp] theorem accept_decCounter (i : Instr) (s : State) : (accept i s).decCounter = s.decCounter := rfl
@[simp] theorem accept_decButton (i : Instr) (s : State) : (accept i s).decButton = s.decButton := rfl
@[simp] theorem accept_payload0 (i : Instr) (s : State) : (accept i s).payload0 = s.payload0 := rfl
@[simp] theorem accept_payload1 (i : Instr) (s : State) : (accept i s).payload1 = s.payload1 := rfl
@[simp] theorem accept_payload2 (i : Instr) (s : State) : (accept i s).payload2 = s.payload2 := rfl
@[simp] theorem accept_kt (i : Instr) (s : State) : (accept i s).kt = s.kt := rfl
@[simp] theorem accept_doneFlag (i : Instr) (s : State) : (accept i s).doneFlag = false := rfl
@[simp] theorem accept_err (i : Instr) (s : State) : (accept i s).err = .none := rfl
@[simp] theorem accept_werr (i : Instr) (s : State) : (accept i s).werr = s.werr := rfl
@[simp] theorem accept_lastop (i : Instr) (s : State) : (accept i s).lastop = opcodeOf i := rfl
@[simp] theorem accept_doneIe (i : Instr) (s : State) : (accept i s).doneIe = s.doneIe := rfl
@[simp] theorem accept_seq (i : Instr) (s : State) : (accept i s).seq = loadPass i 0 (presented (opcodeOf i) s) { s.seq with phase := .busy, op := opcodeOf i, tsel := tselOf i, pass := 0 } := rfl
@[simp] theorem accept_port (i : Instr) (s : State) : (accept i s).port = s.port := rfl
@[simp] theorem accept_out (i : Instr) (s : State) : (accept i s).out = s.out := rfl
@[simp] theorem accept_faults (i : Instr) (s : State) : (accept i s).faults = s.faults := rfl
@[simp] theorem accept_host (i : Instr) (s : State) : (accept i s).host = s.host := rfl
@[simp] theorem accept_reply (i : Instr) (s : State) : (accept i s).reply = s.reply := rfl
@[simp] theorem accept_turns (i : Instr) (s : State) : (accept i s).turns = s.turns := rfl
@[simp] theorem accept_draws (i : Instr) (s : State) : (accept i s).draws = s.draws := rfl

/-! `resetBlock` leaves what is not the block's. -/

@[simp] theorem resetBlock_block  (s : State) : (resetBlock s).block = State.reset.block := rfl
@[simp] theorem resetBlock_keyLo  (s : State) : (resetBlock s).keyLo = State.reset.keyLo := rfl
@[simp] theorem resetBlock_keyHi  (s : State) : (resetBlock s).keyHi = State.reset.keyHi := rfl
@[simp] theorem resetBlock_dkeyLo  (s : State) : (resetBlock s).dkeyLo = State.reset.dkeyLo := rfl
@[simp] theorem resetBlock_dkeyHi  (s : State) : (resetBlock s).dkeyHi = State.reset.dkeyHi := rfl
@[simp] theorem resetBlock_serial  (s : State) : (resetBlock s).serial = State.reset.serial := rfl
@[simp] theorem resetBlock_counter  (s : State) : (resetBlock s).counter = State.reset.counter := rfl
@[simp] theorem resetBlock_button  (s : State) : (resetBlock s).button = State.reset.button := rfl
@[simp] theorem resetBlock_cstate  (s : State) : (resetBlock s).cstate = State.reset.cstate := rfl
@[simp] theorem resetBlock_decCounter  (s : State) : (resetBlock s).decCounter = State.reset.decCounter := rfl
@[simp] theorem resetBlock_decButton  (s : State) : (resetBlock s).decButton = State.reset.decButton := rfl
@[simp] theorem resetBlock_payload0  (s : State) : (resetBlock s).payload0 = State.reset.payload0 := rfl
@[simp] theorem resetBlock_payload1  (s : State) : (resetBlock s).payload1 = State.reset.payload1 := rfl
@[simp] theorem resetBlock_payload2  (s : State) : (resetBlock s).payload2 = State.reset.payload2 := rfl
@[simp] theorem resetBlock_kt  (s : State) : (resetBlock s).kt = State.reset.kt := rfl
@[simp] theorem resetBlock_doneFlag  (s : State) : (resetBlock s).doneFlag = State.reset.doneFlag := rfl
@[simp] theorem resetBlock_err  (s : State) : (resetBlock s).err = State.reset.err := rfl
@[simp] theorem resetBlock_werr  (s : State) : (resetBlock s).werr = State.reset.werr := rfl
@[simp] theorem resetBlock_lastop  (s : State) : (resetBlock s).lastop = State.reset.lastop := rfl
@[simp] theorem resetBlock_doneIe  (s : State) : (resetBlock s).doneIe = State.reset.doneIe := rfl
@[simp] theorem resetBlock_seq  (s : State) : (resetBlock s).seq = State.reset.seq := rfl
@[simp] theorem resetBlock_port  (s : State) : (resetBlock s).port = State.reset.port := rfl
@[simp] theorem resetBlock_out  (s : State) : (resetBlock s).out = s.out := rfl
@[simp] theorem resetBlock_faults  (s : State) : (resetBlock s).faults = s.faults := rfl
@[simp] theorem resetBlock_host  (s : State) : (resetBlock s).host = s.host := rfl
@[simp] theorem resetBlock_reply  (s : State) : (resetBlock s).reply = s.reply := rfl
@[simp] theorem resetBlock_turns  (s : State) : (resetBlock s).turns = s.turns := rfl
@[simp] theorem resetBlock_draws  (s : State) : (resetBlock s).draws = s.draws := rfl

/-! `recordFault` writes the fault set alone. -/

@[simp] theorem recordFault_block (f : BusFault) (s : State) : (recordFault f s).block = s.block := rfl
@[simp] theorem recordFault_keyLo (f : BusFault) (s : State) : (recordFault f s).keyLo = s.keyLo := rfl
@[simp] theorem recordFault_keyHi (f : BusFault) (s : State) : (recordFault f s).keyHi = s.keyHi := rfl
@[simp] theorem recordFault_dkeyLo (f : BusFault) (s : State) : (recordFault f s).dkeyLo = s.dkeyLo := rfl
@[simp] theorem recordFault_dkeyHi (f : BusFault) (s : State) : (recordFault f s).dkeyHi = s.dkeyHi := rfl
@[simp] theorem recordFault_serial (f : BusFault) (s : State) : (recordFault f s).serial = s.serial := rfl
@[simp] theorem recordFault_counter (f : BusFault) (s : State) : (recordFault f s).counter = s.counter := rfl
@[simp] theorem recordFault_button (f : BusFault) (s : State) : (recordFault f s).button = s.button := rfl
@[simp] theorem recordFault_cstate (f : BusFault) (s : State) : (recordFault f s).cstate = s.cstate := rfl
@[simp] theorem recordFault_decCounter (f : BusFault) (s : State) : (recordFault f s).decCounter = s.decCounter := rfl
@[simp] theorem recordFault_decButton (f : BusFault) (s : State) : (recordFault f s).decButton = s.decButton := rfl
@[simp] theorem recordFault_payload0 (f : BusFault) (s : State) : (recordFault f s).payload0 = s.payload0 := rfl
@[simp] theorem recordFault_payload1 (f : BusFault) (s : State) : (recordFault f s).payload1 = s.payload1 := rfl
@[simp] theorem recordFault_payload2 (f : BusFault) (s : State) : (recordFault f s).payload2 = s.payload2 := rfl
@[simp] theorem recordFault_kt (f : BusFault) (s : State) : (recordFault f s).kt = s.kt := rfl
@[simp] theorem recordFault_doneFlag (f : BusFault) (s : State) : (recordFault f s).doneFlag = s.doneFlag := rfl
@[simp] theorem recordFault_err (f : BusFault) (s : State) : (recordFault f s).err = s.err := rfl
@[simp] theorem recordFault_werr (f : BusFault) (s : State) : (recordFault f s).werr = s.werr := rfl
@[simp] theorem recordFault_lastop (f : BusFault) (s : State) : (recordFault f s).lastop = s.lastop := rfl
@[simp] theorem recordFault_doneIe (f : BusFault) (s : State) : (recordFault f s).doneIe = s.doneIe := rfl
@[simp] theorem recordFault_seq (f : BusFault) (s : State) : (recordFault f s).seq = s.seq := rfl
@[simp] theorem recordFault_port (f : BusFault) (s : State) : (recordFault f s).port = s.port := rfl
@[simp] theorem recordFault_out (f : BusFault) (s : State) : (recordFault f s).out = s.out := rfl
@[simp] theorem recordFault_faults (f : BusFault) (s : State) : (recordFault f s).faults = if f ∈ s.faults then s.faults else s.faults ++ [f] := rfl
@[simp] theorem recordFault_host (f : BusFault) (s : State) : (recordFault f s).host = s.host := rfl
@[simp] theorem recordFault_reply (f : BusFault) (s : State) : (recordFault f s).reply = s.reply := rfl
@[simp] theorem recordFault_turns (f : BusFault) (s : State) : (recordFault f s).turns = s.turns := rfl
@[simp] theorem recordFault_draws (f : BusFault) (s : State) : (recordFault f s).draws = s.draws := rfl

/-! A write of STATUS touches DONE and WERR alone. -/

@[simp] theorem writeStatus_block (v : Word) (s : State) : (s.writeStatus v).block = s.block := rfl
@[simp] theorem writeStatus_keyLo (v : Word) (s : State) : (s.writeStatus v).keyLo = s.keyLo := rfl
@[simp] theorem writeStatus_keyHi (v : Word) (s : State) : (s.writeStatus v).keyHi = s.keyHi := rfl
@[simp] theorem writeStatus_dkeyLo (v : Word) (s : State) : (s.writeStatus v).dkeyLo = s.dkeyLo := rfl
@[simp] theorem writeStatus_dkeyHi (v : Word) (s : State) : (s.writeStatus v).dkeyHi = s.dkeyHi := rfl
@[simp] theorem writeStatus_serial (v : Word) (s : State) : (s.writeStatus v).serial = s.serial := rfl
@[simp] theorem writeStatus_counter (v : Word) (s : State) : (s.writeStatus v).counter = s.counter := rfl
@[simp] theorem writeStatus_button (v : Word) (s : State) : (s.writeStatus v).button = s.button := rfl
@[simp] theorem writeStatus_cstate (v : Word) (s : State) : (s.writeStatus v).cstate = s.cstate := rfl
@[simp] theorem writeStatus_decCounter (v : Word) (s : State) : (s.writeStatus v).decCounter = s.decCounter := rfl
@[simp] theorem writeStatus_decButton (v : Word) (s : State) : (s.writeStatus v).decButton = s.decButton := rfl
@[simp] theorem writeStatus_payload0 (v : Word) (s : State) : (s.writeStatus v).payload0 = s.payload0 := rfl
@[simp] theorem writeStatus_payload1 (v : Word) (s : State) : (s.writeStatus v).payload1 = s.payload1 := rfl
@[simp] theorem writeStatus_payload2 (v : Word) (s : State) : (s.writeStatus v).payload2 = s.payload2 := rfl
@[simp] theorem writeStatus_kt (v : Word) (s : State) : (s.writeStatus v).kt = s.kt := rfl
@[simp] theorem writeStatus_doneFlag (v : Word) (s : State) : (s.writeStatus v).doneFlag = (s.doneFlag && !v.getLsbD 1) := rfl
@[simp] theorem writeStatus_err (v : Word) (s : State) : (s.writeStatus v).err = s.err := rfl
@[simp] theorem writeStatus_werr (v : Word) (s : State) : (s.writeStatus v).werr = (s.werr && !v.getLsbD 5) := rfl
@[simp] theorem writeStatus_lastop (v : Word) (s : State) : (s.writeStatus v).lastop = s.lastop := rfl
@[simp] theorem writeStatus_doneIe (v : Word) (s : State) : (s.writeStatus v).doneIe = s.doneIe := rfl
@[simp] theorem writeStatus_seq (v : Word) (s : State) : (s.writeStatus v).seq = s.seq := rfl
@[simp] theorem writeStatus_port (v : Word) (s : State) : (s.writeStatus v).port = s.port := rfl
@[simp] theorem writeStatus_out (v : Word) (s : State) : (s.writeStatus v).out = s.out := rfl
@[simp] theorem writeStatus_faults (v : Word) (s : State) : (s.writeStatus v).faults = s.faults := rfl
@[simp] theorem writeStatus_host (v : Word) (s : State) : (s.writeStatus v).host = s.host := rfl
@[simp] theorem writeStatus_reply (v : Word) (s : State) : (s.writeStatus v).reply = s.reply := rfl
@[simp] theorem writeStatus_turns (v : Word) (s : State) : (s.writeStatus v).turns = s.turns := rfl
@[simp] theorem writeStatus_draws (v : Word) (s : State) : (s.writeStatus v).draws = s.draws := rfl

/-! What the shared updates do to the flags and operands computed from the fields. -/

theorem busy_eq_true {s : State} : s.busy = true ↔ s.seq.phase = .busy := by
  unfold State.busy; cases s.seq.phase <;> simp

theorem busy_eq_false {s : State} : s.busy = false ↔ s.seq.phase = .idle := by
  unfold State.busy; cases s.seq.phase <;> simp

@[simp] theorem complete_busy (code : ErrCode) (s : State) : (complete code s).busy = false := rfl

@[simp] theorem resetBlock_busy (s : State) : (resetBlock s).busy = false := rfl

@[simp] theorem presented_busy (op : BitVec 4) (s : State) : (presented op s).busy = s.busy := rfl

@[simp] theorem complete_running (code : ErrCode) (s : State) : (complete code s).running = s.running := rfl

@[simp] theorem presented_key (op : BitVec 4) (s : State) : (presented op s).key = s.key := rfl

@[simp] theorem presented_dkey (op : BitVec 4) (s : State) : (presented op s).dkey = s.dkey := rfl

@[simp] theorem presented_payload (op : BitVec 4) (s : State) : (presented op s).payload = s.payload := rfl

@[simp] theorem presented_tableOf (op : BitVec 4) (s : State) (t : TableSel) :
    (presented op s).tableOf t = s.tableOf t := by cases t <;> rfl

/-- An Idle sequencer is one whose phase is already Idle: `complete` leaves it as it is. -/
theorem seq_idle_eq {q : Seq} (h : q.phase = .idle) : { q with phase := Phase.idle } = q := by
  cases q; simp_all

end Sys2Proof.Machine
end

