-- ==== Sys2Proof/Laws/Ops.lean ====
section
/-! SUPPORT. One lemma for each shared operation that says once everything it can do. -/

namespace Sys2Proof.Machine

/-- What a command's turn can do: presented while Idle, or run while Busy. -/
theorem commandTurn_cases {onPresent onRun : State → State} {s t : State} (h : commandTurn onPresent onRun s = .next t) :
    (s.seq.phase = .idle ∧ t = onPresent s) ∨ (s.seq.phase = .busy ∧ t = onRun s) := by
  unfold commandTurn at h
  split at h <;> simp_all

theorem commandTurn_idle {onPresent onRun : State → State} {s : State} (h : s.seq.phase = .idle) :
    commandTurn onPresent onRun s = .next (onPresent s) := by
  simp [commandTurn, h]

theorem commandTurn_busy {onPresent onRun : State → State} {s : State} (h : s.seq.phase = .busy) :
    commandTurn onPresent onRun s = .next (onRun s) := by
  simp [commandTurn, h]

/-- A decode that passes commits DECRES with NONE, one that fails leaves it and reports INTEGRITY. -/
theorem commitDecoded_ok {d : Decoded} {s : State} (h : d.ok = true) :
    commitDecoded d s =
      complete .none
        { s with kt := d.kt, cstate := unle4 d.plain, decCounter := d.counter, decButton := d.button } := by
  simp [commitDecoded, h]

theorem commitDecoded_failed {d : Decoded} {s : State} (h : d.ok = false) :
    commitDecoded d s = complete .integrity { s with kt := d.kt, cstate := unle4 d.plain } := by
  simp [commitDecoded, h]

/-- A transfer moves nothing, or one record that is not the last, or the last one, which completes. -/
theorem transfer_cases (s : State) :
    (s.seq.recs[s.seq.k]? = none ∧ transfer s = s) ∨
    (∃ r, s.seq.recs[s.seq.k]? = some r ∧ s.seq.k + 1 ≠ s.seq.recs.length ∧
      transfer s =
        { s with out := s.out ++ [r], seq := { s.seq with k := s.seq.k + 1 },
                 port := offered s.seq.recs (s.seq.k + 1) }) ∨
    (∃ r, s.seq.recs[s.seq.k]? = some r ∧ s.seq.k + 1 = s.seq.recs.length ∧
      transfer s = commitPulse { s with out := s.out ++ [r], seq := { s.seq with k := s.seq.k + 1 } }) := by
  unfold transfer
  split
  · exact .inl ⟨by assumption, rfl⟩
  · rename_i r hr
    by_cases h : s.seq.k + 1 = s.seq.recs.length
    · exact .inr (.inr ⟨r, hr, h, by simp [h]⟩)
    · exact .inr (.inl ⟨r, hr, h, by simp [h]⟩)

/-- The fault set stays a set. -/
theorem recordFault_nodup {f : BusFault} {s : State} (h : s.faults.Nodup) : (recordFault f s).faults.Nodup := by
  rw [recordFault_faults]
  split
  · exact h
  · rename_i hf
    exact List.nodup_append.2 ⟨h, by simp, by simp; exact fun a ha he => hf (he ▸ ha)⟩

/-- Refusing an access touches the fault set and the reply alone. -/
theorem refuseAccess_eq (we : Bool) (fs : List BusFault) (s : State) :
    refuseAccess we fs s = { s with faults := (refuseAccess we fs s).faults, reply := .refused we } := by
  suffices h : ∀ s : State, fs.foldl (fun s f => recordFault f s) s =
      { s with faults := (fs.foldl (fun s f => recordFault f s) s).faults } by
    unfold refuseAccess; rw [h]
  induction fs with
  | nil => intro s; rfl
  | cons f fs ih => intro s; rw [List.foldl_cons, ih]; rfl

theorem refuseAccess_nodup {we : Bool} {fs : List BusFault} {s : State} (h : s.faults.Nodup) :
    (refuseAccess we fs s).faults.Nodup := by
  show (fs.foldl (fun s f => recordFault f s) s).faults.Nodup
  induction fs generalizing s with
  | nil => exact h
  | cons f fs ih => exact ih (recordFault_nodup h)

/-- A register is found at its own offset. -/
@[simp] theorem regAt_offset (r : Reg) : regAt r.offset = some r := by cases r <;> rfl

/-- A read changes the reply and, if it is a draw, the draw counter; nothing else (20_memory.md R64). -/
theorem busRead_cases (off : Byte) (s : State) :
    (∃ v, busRead off s = { s with reply := .data v }) ∨
      busRead off s = { s with reply := .data (Config.freeRead s.draws), draws := s.draws + 1 } := by
  unfold busRead
  repeat' split
  · exact .inl ⟨0, rfl⟩
  · exact .inr rfl
  · exact .inl ⟨_, rfl⟩

/-- Every register of the window stands at an aligned offset. -/
@[simp] theorem offset_aligned (r : Reg) : r.offset.extractLsb' 0 2 = 0 := by cases r <;> rfl

/-- An aligned, full-word read. -/
theorem access_read {off : Byte} (h : off.extractLsb' 0 2 = 0) (v : Word) (s : State) :
    access ⟨false, off, 0b1111, v⟩ s = .next (busRead off s) := by
  simp [access, BusAccess.faults, aligned, fullWord, h]

/-- An aligned, full-word write. -/
theorem access_write {off : Byte} (h : off.extractLsb' 0 2 = 0) (v : Word) (s : State) :
    access ⟨true, off, 0b1111, v⟩ s = busWrite off v s := by
  simp [access, BusAccess.faults, aligned, fullWord, h]

/-- A write of CMD reaches the decoder's guard. -/
theorem access_writeCmd (v : Word) (s : State) :
    access ⟨true, Reg.cmd.offset, 0b1111, v⟩ s = writeCmd v { s with reply := .written } := by
  rw [access_write (offset_aligned _)]
  simp [busWrite]

/-- A write of any other register is `writeReg`. -/
theorem access_writeReg {r : Reg} (hr : r ≠ .cmd) (v : Word) (s : State) :
    access ⟨true, r.offset, 0b1111, v⟩ s = .next (writeReg r v { s with reply := .written }) := by
  rw [access_write (offset_aligned _)]
  cases r <;> first | exact absurd rfl hr | simp [busWrite]

/-- A read of a register of an Idle block returns its value. -/
theorem access_readReg_idle {s : State} (h : s.seq.phase = .idle) (r : Reg) (v : Word) :
    access ⟨false, r.offset, 0b1111, v⟩ s = .next { s with reply := .data (s.readReg r) } := by
  rw [access_read (offset_aligned r)]
  simp [busRead, State.unreadable, State.busy, h]

/-- Nothing stands at a reserved offset (10_state.md R36). -/
theorem regAt_reserved {off : Byte} (h : off.extractLsb' 0 2 = 0) (ho : off = 0x3C ∨ 0x50 ≤ off) : regAt off = none := by
  revert off
  decide

/-- Every register reads 0 after a reset, hard or soft (70_reset_and_hazards.md R260). -/
@[simp] theorem readReg_resetBlock (s : State) (r : Reg) : (resetBlock s).readReg r = 0 := by
  have h : (resetBlock s).readReg r = State.reset.readReg r := by cases r <;> rfl
  rw [h]
  cases r <;> decide

/-- A write of a data register keeps the sequencer, the flags, the key table and the decode result. -/
theorem writeData_keeps (r : Reg) (v : Word) (s : State) :
    (writeData r v s).seq = s.seq ∧ (writeData r v s).port = s.port ∧ (writeData r v s).kt = s.kt ∧
      (writeData r v s).doneFlag = s.doneFlag ∧ (writeData r v s).err = s.err ∧ (writeData r v s).werr = s.werr ∧
      (writeData r v s).lastop = s.lastop ∧ (writeData r v s).doneIe = s.doneIe ∧
      (writeData r v s).decCounter = s.decCounter ∧ (writeData r v s).decButton = s.decButton ∧
      (writeData r v s).out = s.out ∧ (writeData r v s).faults = s.faults := by
  cases r <;> simp [writeData]

/-- What a write of any register but CMD can do. -/
theorem writeReg_cases (r : Reg) (v : Word) (s : State) :
    (r = .status ∧ writeReg r v s = s.writeStatus v) ∨ (r = .ctrl ∧ writeReg r v s = writeCtrl v s) ∨
    (s.busy = true ∧ r.guarded = true ∧ writeReg r v s = { s with werr := true }) ∨
    ((s.busy = false ∨ r.guarded = false) ∧ writeReg r v s = writeData r v s) := by
  cases r <;> cases hb : s.busy <;> simp [writeReg, Reg.guarded, hb]

/-- With no turn left a running command other than PULSE completes, and nothing else moves. -/
theorem completeTurn_cases (s : State) :
    (∃ i, s.seq.phase = .busy ∧ s.running = some i ∧ i ≠ .pulse ∧ completeTurn s = exec i s) ∨
      ((s.seq.phase = .idle ∨ s.running = none ∨ s.running = some .pulse) ∧ completeTurn s = .next s) := by
  unfold completeTurn
  split
  · exact .inr ⟨.inl ‹_›, rfl⟩
  · rename_i hb
    split
    · exact .inr ⟨.inr (.inl ‹_›), rfl⟩
    · rename_i i hi
      by_cases h : i = .pulse
      · exact .inr ⟨.inr (.inr (h ▸ hi)), by simp [h]⟩
      · exact .inl ⟨i, hb, hi, h, by simp [h]⟩

/-- The running command of a state whose latched OP and TSEL are a command's. -/
theorem running_of_word {s : State} {i : Instr} (h : decodeWord (commandWord s.seq.op s.seq.tsel) = .ok i) :
    s.running = some i := by
  simp [State.running, h]

/-- Loading a pass keeps the phase, the latched word and the pass number. -/
theorem loadPass_keeps (i : Instr) (n : Fin 3) (s : State) (q : Seq) :
    (loadPass i n s q).phase = q.phase ∧ (loadPass i n s q).op = q.op ∧ (loadPass i n s q).tsel = q.tsel ∧
      (loadPass i n s q).pass = q.pass := by
  cases i <;> simp [loadPass, loadStd, loadScramble, loadPayloadPass] <;> (repeat' split) <;> simp

/-- A bit-step keeps the phase, the latched word, the pass number and the pulse records. -/
theorem bitStep_keeps (kind : PassKind) (T : Table) (q : Seq) :
    (bitStep kind T q).phase = q.phase ∧ (bitStep kind T q).op = q.op ∧ (bitStep kind T q).tsel = q.tsel ∧
      (bitStep kind T q).pass = q.pass ∧ (bitStep kind T q).k = q.k ∧ (bitStep kind T q).recs = q.recs ∧
      (bitStep kind T q).acc = q.acc ∧ (bitStep kind T q).half0 = q.half0 ∧ (bitStep kind T q).half1 = q.half1 := by
  cases kind <;> simp [bitStep, stdCycle, scrambleCycle, startOuter] <;> split <;> simp

/-- A bit-step counts in `r`. -/
theorem bitStep_r (kind : PassKind) (T : Table) (q : Seq) : (bitStep kind T q).r = q.r + 1 := by
  cases kind <;> simp [bitStep, stdCycle, scrambleCycle, startOuter] <;> split <;> rfl

end Sys2Proof.Machine
end

