-- ==== Sys2Proof/Laws/PerInstr.lean ====
section
/-! SUPPORT. Statements made instruction by instruction. -/

namespace Sys2Proof.Laws

/-- Decoding the word of a command gives the command back (30_encoding.md R80, R83). -/
def RoundTrip.Statement (i : Instr) : Prop := decodeWord (encode i) = .ok i

theorem RoundTrip.nop : RoundTrip.Statement .nop := rfl

theorem RoundTrip.stdEnc : RoundTrip.Statement .stdEnc := rfl

theorem RoundTrip.stdDec : RoundTrip.Statement .stdDec := rfl

theorem RoundTrip.derive : RoundTrip.Statement .derive := rfl

theorem RoundTrip.expand : RoundTrip.Statement .expand := rfl

theorem RoundTrip.scrL (t : TableSel) : RoundTrip.Statement (.scrL t) := by cases t <;> rfl

theorem RoundTrip.scrR (t : TableSel) : RoundTrip.Statement (.scrR t) := by cases t <;> rfl

theorem RoundTrip.encPayload : RoundTrip.Statement .encPayload := rfl

theorem RoundTrip.decPayload : RoundTrip.Statement .decPayload := rfl

theorem RoundTrip.build : RoundTrip.Statement .build := rfl

theorem RoundTrip.decode : RoundTrip.Statement .decode := rfl

theorem RoundTrip.pulse : RoundTrip.Statement .pulse := rfl

end Sys2Proof.Laws
end

