-- ==== Sys2Proof/Tests/Slice0.lean ====
section
/-! SUPPORT. The author's own tests. Expected values are those of spec/95_test_vectors.md (the vector is named at each test)
or words written out from the encodings of 30_encoding.md. The last part holds, for each statement that has hypotheses,
a state and operands that meet them. -/

namespace Sys2Proof.Tests

open Sys2Proof Sys2Proof.Machine

/-! ## Small states -/

/-- The next state of an answer; reset stands for the answers that have none. -/
def nextState (o : Result) : State :=
  match o with
  | .next t => t
  | .fault _ => State.reset
  | .refused _ => State.reset

/-- The inputs of V-STD-1, V-SCR-1 and V-PAY-2, in an Idle block. -/
def sample : State :=
  { State.reset with
    block := 0xF741E2DB, keyLo := 0xB79FD949, keyHi := 0x5CEC6701, dkeyLo := 0x89ABCDEF, dkeyHi := 0x01234567
    serial := 0x1234567, counter := 0x0001, button := 0x50, cstate := 0x12345678
    payload0 := 0x4E984241, payload1 := 0x50234567 }

/-- The sample with the ciphertext of V-PAY-1 in BLOCK. -/
def cipherSample : State := { sample with block := 0x4E984241 }

/-- A state in which the command has just been accepted. -/
def started (i : Instr) (s : State) : State := nextState (exec i s)

/-- A state in which the command has just completed. -/
def finished (i : Instr) (s : State) : State := nextState (exec i (started i s))

/-- One bus write of an aligned full word. -/
def wr (off : Byte) (v : Word) (s : State) : State := nextState (access ⟨true, off, 0b1111, v⟩ s)

/-- One bus read of an aligned full word. -/
def rd (off : Byte) (s : State) : State := nextState (access ⟨false, off, 0b1111, 0⟩ s)

/-! ## The checks on what comes from outside, each with a term it refuses -/

/-- V-CTL-4: OP 0xC is reserved. -/
theorem test_legal_refuses_reserved_opcode : legal 0x0000000C = false := by decide

/-- V-CTL-5 and V-CTL-8: TSEL must be 0 outside SCR_L and SCR_R. -/
theorem test_legal_refuses_table_elsewhere : legal 0x00000030 = false ∧ legal 0x00000019 = false := by decide

/-- V-CTL-6: TSEL = 3 selects no table. -/
theorem test_legal_refuses_table_three : legal 0x00000035 = false ∧ legal 0x00000036 = false := by decide

/-- V-CTL-7: RSVD bit 6. -/
theorem test_legal_refuses_reserved_bits : legal 0x00000041 = false ∧ legal 0x80000000 = false := by decide

theorem test_decoder_names_the_reason :
    decodeWord 0x0000000C = .error .reservedOpcode ∧ decodeWord 0x00000035 = .error .forbiddenTable ∧
      decodeWord 0x00000041 = .error .reservedBits := ⟨rfl, rfl, rfl⟩

/-- V-CTL-12. -/
theorem test_aligned_refuses_odd_offset : aligned 0x05 = false ∧ aligned 0x06 = false ∧ aligned 0xFC = true := by decide

theorem test_fullWord_refuses_partial : fullWord 0b0111 = false ∧ fullWord 0b0000 = false := by decide

/-- The default tap record meets 41_scramble_cipher.md R134. -/
theorem test_default_config_is_well_formed : cfg.wf = true := by decide

/-- Constraint 1 refuses a left tap that is not one below the right one. -/
theorem test_tapsOneBelow_refuses : tapsOneBelow { scrLeftDefault with r4 := ⟨2, 4⟩ } scrRightDefault = false := by decide

/-- Constraint 2 refuses a right tap at position 0. -/
theorem test_rightTapsAvoidZero_refuses : rightTapsAvoidZero { scrRightDefault with r1 := ⟨0, 0⟩ } = false := by decide

/-- Constraint 3 refuses another right feedback bit and an XOR without S0. -/
theorem test_rightLinearAtZero_refuses :
    rightLinearAtZero { scrRightDefault with fbit := 1 } = false ∧
      rightLinearAtZero { scrRightDefault with fa := 1 } = false := by decide

/-- Constraint 4 refuses another left feedback bit and an XOR without S3. -/
theorem test_leftLinearAtTop_refuses :
    leftLinearAtTop { scrLeftDefault with fbit := 0 } = false ∧
      leftLinearAtTop { scrLeftDefault with fb := 2 } = false := by decide

/-- Constraint 5 refuses an unpaired second byte. -/
theorem test_otherBytesPair_refuses : otherBytesPair { scrLeftDefault with fa := 2 } scrRightDefault = false := by decide

/-- Constraint 6 refuses masks that are not bit-reversed. -/
theorem test_masksReversed_refuses :
    masksReversed { scrLeftDefault with mask := scrRightDefault.mask } scrRightDefault = false := by decide

theorem test_wf_refuses_a_bad_record : Cfg.wf { cfg with scrLeft := { scrLeftDefault with fa := 2 } } = false := by decide

/-! ## Decoding: words written out as RSVD, TSEL, OP (30_encoding.md R80, R81, R83) -/

theorem test_decode_nop : decodeWord 0b00000000000000000000000000_00_0000#32 = .ok .nop := rfl
theorem test_decode_stdEnc : decodeWord 0b00000000000000000000000000_00_0001#32 = .ok .stdEnc := rfl
theorem test_decode_stdDec : decodeWord 0b00000000000000000000000000_00_0010#32 = .ok .stdDec := rfl
theorem test_decode_derive : decodeWord 0b00000000000000000000000000_00_0011#32 = .ok .derive := rfl
theorem test_decode_expand : decodeWord 0b00000000000000000000000000_00_0100#32 = .ok .expand := rfl
theorem test_decode_scrL :
    decodeWord 0b00000000000000000000000000_00_0101#32 = .ok (.scrL .dkey) ∧
    decodeWord 0b00000000000000000000000000_01_0101#32 = .ok (.scrL .kt0) ∧
    decodeWord 0b00000000000000000000000000_10_0101#32 = .ok (.scrL .kt1) := ⟨rfl, rfl, rfl⟩
theorem test_decode_scrR :
    decodeWord 0b00000000000000000000000000_00_0110#32 = .ok (.scrR .dkey) ∧
    decodeWord 0b00000000000000000000000000_01_0110#32 = .ok (.scrR .kt0) ∧
    decodeWord 0b00000000000000000000000000_10_0110#32 = .ok (.scrR .kt1) := ⟨rfl, rfl, rfl⟩
theorem test_decode_encPayload : decodeWord 0b00000000000000000000000000_00_0111#32 = .ok .encPayload := rfl
theorem test_decode_decPayload : decodeWord 0b00000000000000000000000000_00_1000#32 = .ok .decPayload := rfl
theorem test_decode_build : decodeWord 0b00000000000000000000000000_00_1001#32 = .ok .build := rfl
theorem test_decode_decode : decodeWord 0b00000000000000000000000000_00_1010#32 = .ok .decode := rfl
theorem test_decode_pulse : decodeWord 0b00000000000000000000000000_00_1011#32 = .ok .pulse := rfl

/-- The table's word of BUILD, through the host's own entry point. -/
theorem test_decodeTableWord : decodeTableWord 32 0x9 = some .build ∧ decodeTableWord 32 0xC = none := ⟨rfl, rfl⟩

/-! ## One command at a time (95_test_vectors.md section 2) -/

/-- V-CTL-1. -/
theorem test_nop_status : (wr 0x00 0x00000000 State.reset).statusWord = 0x00000002 := by decide

/-- V-STD-1 and its STATUS. -/
theorem test_stdEnc_vector :
    (finished .stdEnc sample).block = 0xE44F4CDF ∧ (finished .stdEnc sample).statusWord = 0x00000102 := by
  decide +kernel

/-- V-STD-1 read back. -/
theorem test_stdDec_vector : (finished .stdDec { sample with block := 0xE44F4CDF }).block = 0xF741E2DB := by
  decide +kernel

/-- V-STD-2 under the literal reading of the taps. -/
theorem test_std_literal_reading :
    stdEnc { cfg with stdTapReading := .literal } 0x12345678 0x0123456789ABCDEF = 0x0D3C4038 ∧
      stdDec { cfg with stdTapReading := .literal } 0x12345678 0x0123456789ABCDEF = 0x6B95768F := by
  decide +kernel

/-- V-DRV-1. -/
theorem test_derive_vector :
    let t := finished .derive { sample with keyLo := 0x89ABCDEF, keyHi := 0x01234567 }
    t.dkeyHi = 0x0516FBE9 ∧ t.dkeyLo = 0x89074278 := by
  decide +kernel

/-- V-EXP-1: the table and the STATE it leaves. -/
theorem test_expand_vector :
    let t := finished .expand sample
    t.readReg .kt0 = 0xE9870119 ∧ t.readReg .kt3 = 0xBFCB791F ∧ t.cstate = 0xBFCB791F := by
  decide +kernel

/-- V-SCR-1. -/
theorem test_scrL_vector : (finished (.scrL .dkey) sample).cstate = 0x188646D6 := by decide +kernel

/-- V-SCR-4: `kt0` after reset is all zero. -/
theorem test_scrL_table : (finished (.scrL .kt0) sample).cstate = 0xBB7D2E0C := by decide +kernel

/-- V-SCR-1. -/
theorem test_scrR_vector : (finished (.scrR .dkey) sample).cstate = 0xB909A03B := by decide +kernel

/-- V-SCR-4. -/
theorem test_scrR_table : (finished (.scrR .kt1) sample).cstate = 0x4F84E711 := by decide +kernel

/-- V-PAY-1. -/
theorem test_encPayload_vector :
    let t := finished .encPayload sample
    t.block = 0x4E984241 ∧ t.cstate = 0x4E984241 ∧ t.statusWord = 0x00000702 := by
  decide +kernel

/-- V-PAY-1, decoded. -/
theorem test_decPayload_vector :
    let t := finished .decPayload cipherSample
    t.readReg .decres = 0x00500001 ∧ t.cstate = 0x51C00001 ∧ t.statusWord = 0x00000802 := by
  decide +kernel

/-- V-PAY-5: a wrong device key; DECRES stands. -/
theorem test_decPayload_integrity :
    let t := finished .decPayload { cipherSample with dkeyLo := 0x89ABCDEE, decButton := 0x77 }
    t.statusWord = 0x00000806 ∧ t.cstate = 0x170BE54B ∧ t.readReg .decres = 0x00770000 := by
  decide +kernel

/-- V-PAY-2. -/
theorem test_build_vector :
    let t := finished .build { sample with payload0 := 0, payload1 := 0, payload2 := 0xFF }
    t.payload0 = 0x4E984241 ∧ t.payload1 = 0x50234567 ∧ t.payload2 = 0x00 := by
  decide +kernel

/-- V-PAY-12. -/
theorem test_build_button :
    let t := wr 0x00 0x00000009 { sample with button := 0x51 }
    t.statusWord = 0x0000090A ∧ t.payload0 = sample.payload0 := by
  decide

/-- V-PAY-15: `SER_NIBBLE_IN_B7`. -/
theorem test_build_serial_nibble : payloadByte7 { cfg with serNibbleInB7 := true } 0x1234567 0x50 = 0x51 := by decide

/-- V-PAY-11: PAYLOAD1 and PAYLOAD2 are not read. -/
theorem test_decode_vector :
    let t := finished .decode { sample with payload1 := 0xFFFFFFFF, payload2 := 0xFF }
    t.readReg .decres = 0x00500001 ∧ t.statusWord = 0x00000A02 := by
  decide +kernel

/-- V-PLS-1: the first record, before the header gap, the header gap, the first payload pair, the last two records. -/
theorem test_pulse_records :
    let L := pulseSeq cfg sample.payload
    L.length = 180 ∧ L[0]? = some ⟨false, 1⟩ ∧ L[45]? = some ⟨true, 1⟩ ∧ L[46]? = some ⟨false, 20⟩ ∧
      L[47]? = some ⟨true, 2⟩ ∧ L[48]? = some ⟨false, 4⟩ ∧ L[49]? = some ⟨true, 4⟩ ∧ L[178]? = some ⟨false, 2⟩ ∧
      L[179]? = some ⟨false, 75⟩ := by
  decide +kernel

/-- V-PLS-5: nothing is transferred while the sink is not ready, and one transfer hands over record 0. -/
theorem test_pulse_transfer :
    let s := started .pulse sample
    s.statusWord = 0x00000B01 ∧ tickTurn s = s ∧ (nextState (transferTurn s)).out = [⟨false, 1⟩] ∧
      (nextState (transferTurn s)).seq.k = 1 := by
  decide +kernel

/-! ## The bus (95_test_vectors.md V-CTL) -/

/-- V-CTL-4 to V-CTL-8. -/
theorem test_illegal_words :
    (wr 0x00 0x0000000C State.reset).statusWord = 0x00000C0E ∧ (wr 0x00 0x00000030 State.reset).statusWord = 0x0000000E ∧
      (wr 0x00 0x00000035 State.reset).statusWord = 0x0000050E ∧
      (wr 0x00 0x00000041 State.reset).statusWord = 0x0000010E ∧
      (wr 0x00 0x00000019 { State.reset with button := 0x51 }).statusWord = 0x0000090E := by
  decide

/-- V-CTL-9: the write is dropped and WERR is set. -/
theorem test_write_while_busy :
    (started .stdEnc State.reset).statusWord = 0x00000101 ∧
      (wr 0x0C 0x12345678 (started .stdEnc State.reset)).statusWord = 0x00000121 ∧
      (wr 0x0C 0x12345678 (started .stdEnc State.reset)).block = 0 := by
  decide

/-- V-CTL-2, V-CTL-3 and V-CTL-10. -/
theorem test_interrupt_and_soft_reset :
    (wr 0x00 0 (wr 0x08 1 State.reset)).irq = true ∧ (wr 0x04 2 (wr 0x00 0 (wr 0x08 1 State.reset))).irq = false ∧
      (wr 0x08 3 sample).ctrlWord = 0 ∧ (wr 0x08 3 sample).block = 0 := by
  decide

/-- V-CTL-11. -/
theorem test_reserved_reads :
    (rd 0x00 sample).reply = .data 0 ∧ (rd 0x3C sample).reply = .data 0 ∧ (rd 0x80 sample).reply = .data 0 := by
  decide

/-- V-CTL-12. -/
theorem test_misaligned_read : (rd 0x05 sample).faults = [.misaligned 0x05] ∧ (rd 0x05 sample).reply = .refused false := by decide

/-- Reserved bits are not kept (10_state.md R23, R30, R31). -/
theorem test_reserved_bits_read_zero :
    (rd 0x20 (wr 0x20 0xFFFFFFFF sample)).reply = .data 0x0FFFFFFF ∧
      (rd 0x24 (wr 0x24 0xFFFFFFFF sample)).reply = .data 0x00FFFFFF ∧
      (rd 0x38 (wr 0x38 0xFFFFFFFF sample)).reply = .data 0x000000FF := by
  decide

/-- `WAIT` loops while BUSY reads 1 and ends when it reads 0 (30_encoding.md R88). -/
theorem test_wait :
    (nextState (hostTurn { started .stdEnc sample with host := [.wait] })).host = [.wait] ∧
      (nextState (hostTurn { sample with host := [.wait] })).host = [] := by
  decide

/-- The host that waits for irq goes on once it is 1 (20_memory.md R72). -/
theorem test_wait_for_irq :
    (nextState (hostTurn { sample with host := [.waitIrq], doneFlag := true })).host = [.waitIrq] ∧
      (nextState (hostTurn { sample with host := [.waitIrq], doneFlag := true, doneIe := true })).host = [] := by
  decide

/-- The word placed by `withFetchWord` runs in the very next step. -/
theorem test_withFetchWord :
    (nextState (step (State.reset.withFetchWord 32 0x1))).statusWord = 0x00000101 ∧
      (nextState (step ((started .pulse sample).withFetchWord 32 0x9))).statusWord = 0x00000901 := by
  decide +kernel

/-- One cycle of the schedule is one bit-step (70_reset_and_hazards.md R280): after 527 of STD_ENC's 528 the command is
still Busy, and the next commits V-STD-1. -/
theorem test_schedule_of_stdEnc :
    (times tickTurn 527 (started .stdEnc sample)).busy = true ∧
      (times tickTurn 528 (started .stdEnc sample)).block = 0xE44F4CDF ∧
      (times tickTurn 528 (started .stdEnc sample)).busy = false := by
  decide +kernel

/-- R260: an access in a reset edge is ignored and its read returns 0. -/
theorem test_host_in_reset :
    let s := hostInReset { sample with host := [.bus ⟨false, 0x0C, 0b1111, 0⟩] }
    s.reply = .data 0 ∧ s.host = [] ∧ s.block = 0 := by
  decide

/-! ## A state and operands that meet the hypotheses of each statement

Statements without hypotheses have none here. -/

/-- The sample with its turns, its host's accesses and its button set. -/
def scheduled (ts : List Turn) (hs : List HostAction) (s : State) : State := { s with turns := ts, host := hs }

/-- The state of STD_ENC after 527 cycles. -/
def lastCycle : State := times tickTurn 527 (started .stdEnc sample)

/-- An Idle block without faults and without an offered record meets the invariant. -/
theorem inv_of_idle {s : State} (h : s.seq.phase = .idle) (hp : s.port.valid = false) (hf : s.faults.Nodup) : Inv s := by
  refine ⟨?_, ?_, hf⟩
  · simp [PortInv, h, hp]
  · intro hb
    rw [h] at hb
    cases hb

/-- The parts of `DatapathInv` of a command that runs bit-serial passes. -/
theorem datapathInv_of {i : Instr} {s : State} {kind : PassKind} (hp : s.seq.pass ≤ lastPass i) (hv : PassesInv i s)
    (hk : passKind i s.seq.pass = some kind)
    (e : s.seq = times (bitStep kind (passTable i s.seq.pass s s.seq)) s.seq.r.val (loadPass i s.seq.pass s s.seq)) :
    DatapathInv i s :=
  ⟨hp, hv, by rw [hk]; exact e⟩

/-- A command always answers a next state. -/
theorem exec_nextState (i : Instr) (s : State) : exec i s = .next (nextState (exec i s)) := by
  have h : ∀ f g, commandTurn f g s = .next (nextState (commandTurn f g s)) := by
    intro f g
    unfold commandTurn
    split <;> rfl
  cases i <;>
    simp only [exec, execNop, execStdEnc, execStdDec, execDerive, execExpand, execScrL, execScrR, execEncPayload, execDecPayload,
      execBuild, execDecode, execPulse] <;>
    exact h _ _

theorem witness_LegalWordSelectsOneCommand :
    legal 0x00000026 = true ∧ legal 0x00000036 = false ∧ legal 0x00000046 = false ∧ legal 0x0000000C = false ∧
      sample.seq.phase = .idle := by
  decide

theorem witness_StepRunsThePresentedCommand :
    (scheduled [.host, .tick] [cmdWrite 0x25, .wait] sample).turns = [.host, .tick] ∧
      (scheduled [.host, .tick] [cmdWrite 0x25, .wait] sample).host = [cmdWrite 0x25, .wait] ∧
      sample.seq.phase = .idle ∧ decodeWord 0x25 = .ok (.scrL .kt1) ∧ decodeTableWord 32 0xB = some .pulse :=
  ⟨rfl, rfl, rfl, rfl, rfl⟩

theorem witness_StepRunsTheRunningCommand :
    (scheduled [.complete] [] (started .derive sample)).seq.phase = .busy ∧
      (scheduled [.complete] [] (started .derive sample)).running = some .derive ∧ Instr.derive ≠ .pulse ∧
      (scheduled [.transfer] [] (started .pulse sample)).seq.phase = .busy ∧
      (scheduled [.transfer] [] (started .pulse sample)).running = some .pulse ∧
      (started .derive sample).turns = [] := by
  decide +kernel

/-- One state for each of the five cases of R225. -/
theorem witness_CommandWordIsAcceptedAsWritten :
    (started .expand sample).seq.phase = .busy ∧ sample.seq.phase = .idle ∧ legal 0x0000000F = false ∧
      ({ sample with button := 0x00 } : State).button ≠ 0x50 ∧ ({ sample with button := 0x00 } : State).button ≠ 0xA0 ∧
      ({ sample with button := 0x00 } : State).button ≠ 0x10 ∧ legal 0x0000000B = true ∧ legal 0x00000009 = true ∧
      (0x00000009 : Word) ≠ 0x00000000 ∧ sample.button = 0x50 := by
  decide

theorem witness_CommandWritesOnlyItsWriteSet :
    exec .stdEnc sample = .next (started .stdEnc sample) ∧ sample.seq.phase = .idle ∧
      exec .stdEnc (started .stdEnc sample) = .next (finished .stdEnc sample) ∧
      (started .stdEnc sample).seq.phase = .busy ∧ Reg.keyLo ∉ writeSet .stdEnc ∧ Instr.stdEnc ≠ .pulse :=
  ⟨rfl, rfl, rfl, rfl, by decide, by decide⟩

/-- BUILD at acceptance. -/
theorem witness_OnlyBuildAndDecodersFailOnData_build :
    Inv { sample with button := 0x51 } ∧
      exec .build { sample with button := 0x51 } = .next (started .build { sample with button := 0x51 }) ∧
      (started .build { sample with button := 0x51 }).err ≠ .none :=
  ⟨inv_of_idle rfl rfl List.nodup_nil, rfl, by decide⟩

/-- A DEC_PAYLOAD that has just been accepted, with the wrong device key of V-PAY-5. -/
def wrongKey : State := started .decPayload { cipherSample with dkeyLo := 0x89ABCDEE }

/-- V-PAY-1's ciphertext decodes. -/
theorem cipherSample_passes :
    (decPayload cfg (serialBytes cipherSample.serial) cipherSample.block (le8 cipherSample.dkey)).ok = true := by
  decide +kernel

/-- V-PAY-5: with this device key it does not. -/
theorem wrongKey_fails :
    (decPayload cfg (serialBytes wrongKey.serial) wrongKey.block (le8 wrongKey.dkey)).ok = false := by
  decide +kernel

theorem inv_wrongKey : Inv wrongKey := by
  refine ⟨?_, ?_, by decide⟩
  · unfold PortInv
    rw [if_neg (by decide)]
    rfl
  · intro _
    exact ⟨rfl, rfl, rfl, .decPayload, by decide, by decide, by decide,
      datapathInv_of (kind := .left) (by decide)
        ⟨fun h => absurd h (by decide), fun h => absurd h (by decide)⟩ (by decide) (by decide +kernel)⟩

theorem witness_OnlyBuildAndDecodersFailOnData_decode :
    Inv wrongKey ∧ exec .decPayload wrongKey = .next (nextState (exec .decPayload wrongKey)) ∧
      (nextState (exec .decPayload wrongKey)).err ≠ .none := by
  refine ⟨inv_wrongKey, rfl, ?_⟩
  have h : nextState (exec .decPayload wrongKey) =
      commitDecoded (decPayload cfg (serialBytes wrongKey.serial) wrongKey.block (le8 wrongKey.dkey)) wrongKey := rfl
  rw [h, commitDecoded_failed wrongKey_fails]
  decide

theorem witness_NopOnlyWritesStatus :
    sample.seq.phase = .idle ∧ (started .stdEnc sample).seq.phase = .busy ∧
      ({ sample with doneIe := true } : State).doneIe = true ∧
      exec .nop { sample with doneIe := true } = .next (started .nop { sample with doneIe := true }) ∧
      exec .nop State.reset = .next (started .nop State.reset) := ⟨rfl, rfl, rfl, rfl, rfl⟩

theorem witness_StdEncEncryptsBlock :
    sample.seq.phase = .idle ∧ (started .stdEnc sample).seq.phase = .busy ∧
      (0x00000041 : Word).extractLsb' 0 4 = 0x1 ∧ (0x00000041 : Word) ≠ 0x00000001 := by
  decide

theorem witness_StdDecDecryptsBlock :
    sample.seq.phase = .idle ∧ (started .stdDec sample).seq.phase = .busy ∧
      (0x00000012 : Word).extractLsb' 0 4 = 0x2 ∧ (0x00000012 : Word) ≠ 0x00000002 := by
  decide

theorem witness_DeriveWritesDeviceKey :
    sample.seq.phase = .idle ∧ (started .derive sample).seq.phase = .busy ∧
      (0x80000003 : Word).extractLsb' 0 4 = 0x3 ∧ (0x80000003 : Word) ≠ 0x00000003 ∧
      (0x1234567 : BitVec 28) ≠ 0x0234567 := by
  decide

theorem witness_ExpandBuildsKeyTable :
    sample.seq.phase = .idle ∧ (started .expand sample).seq.phase = .busy ∧
      (0x00000034 : Word).extractLsb' 0 4 = 0x4 ∧ (0x00000034 : Word) ≠ 0x00000004 ∧
      (0x1234567 : BitVec 28).extractLsb' 0 24 = (0x0234567 : BitVec 28).extractLsb' 0 24 := by
  decide

theorem witness_ScrLShiftsStateLeft :
    sample.seq.phase = .idle ∧ (started (.scrL .kt1) sample).seq.phase = .busy ∧
      (0x00000035 : Word).extractLsb' 0 4 = 0x5 ∧ (0x00000035 : Word).extractLsb' 4 2 = 3 ∧
      (0x00000045 : Word).extractLsb' 0 4 = 0x5 ∧ (0x00000045 : Word).extractLsb' 6 26 ≠ 0 := by
  decide

theorem witness_ScrRShiftsStateRight :
    sample.seq.phase = .idle ∧ (started (.scrR .kt0) sample).seq.phase = .busy ∧
      (0x00000036 : Word).extractLsb' 0 4 = 0x6 ∧ (0x00000036 : Word).extractLsb' 4 2 = 3 ∧
      (0x80000006 : Word).extractLsb' 0 4 = 0x6 ∧ (0x80000006 : Word).extractLsb' 6 26 ≠ 0 := by
  decide

theorem witness_EncPayloadEncryptsIntoBlock :
    sample.seq.phase = .idle ∧ (started .encPayload sample).seq.phase = .busy ∧
      (0x00000017 : Word).extractLsb' 0 4 = 0x7 ∧ (0x00000017 : Word) ≠ 0x00000007 ∧
      (0x51 : Byte).extractLsb' 4 4 = (0x5F : Byte).extractLsb' 4 4 := by
  decide

/-- One input whose check passes and one whose check fails. -/
theorem witness_DecPayloadChecksRedundancy :
    cipherSample.seq.phase = .idle ∧ (started .decPayload cipherSample).seq.phase = .busy ∧
      (decPayload cfg (serialBytes cipherSample.serial) cipherSample.block (le8 cipherSample.dkey)).ok = true ∧
      (decPayload cfg (serialBytes wrongKey.serial) wrongKey.block (le8 wrongKey.dkey)).ok = false ∧
      (0x00000018 : Word).extractLsb' 0 4 = 0x8 ∧ (0x00000018 : Word) ≠ 0x00000008 :=
  ⟨rfl, rfl, cipherSample_passes, wrongKey_fails, by decide, by decide⟩

theorem witness_BuildPacksPayload :
    ({ sample with button := 0x51 } : State).button ≠ 0x50 ∧ ({ sample with button := 0x51 } : State).button ≠ 0xA0 ∧
      ({ sample with button := 0x51 } : State).button ≠ 0x10 ∧ sample.button = 0x50 ∧ sample.seq.phase = .idle ∧
      (started .build sample).seq.phase = .busy ∧ (0x00000019 : Word).extractLsb' 0 4 = 0x9 ∧
      (0x00000019 : Word) ≠ 0x00000009 := by
  decide

theorem witness_DecodeDecryptsPayload :
    sample.seq.phase = .idle ∧ (started .decode sample).seq.phase = .busy ∧
      (decodePayload cfg sample.serial sample.payload (le8 sample.dkey)).ok = true ∧
      (decodePayload cfg sample.serial sample.payload (le8 0x0123456789ABCDEE)).ok = false ∧
      (0x0000001A : Word).extractLsb' 0 4 = 0xA ∧ (0x0000001A : Word) ≠ 0x0000000A := by
  have hw : wordOfBytes sample.payload[0] sample.payload[1] sample.payload[2] sample.payload[3] = 0x4E984241 := by decide
  have hk : wrongKey.dkey = 0x0123456789ABCDEE := by decide
  refine ⟨rfl, rfl, ?_, ?_, by decide, by decide⟩
  · rw [decodePayload, hw]
    exact cipherSample_passes
  · rw [decodePayload, hw, ← hk]
    exact wrongKey_fails

theorem witness_PulseOffersFirstRecord : sample.seq.phase = .idle := rfl

/-- A transfer in the middle and the last one. -/
theorem witness_TransferHandsOverOneRecord :
    let s : State := { started .pulse sample with seq := { (started .pulse sample).seq with k := 178 } }
    let u : State := { started .pulse sample with seq := { (started .pulse sample).seq with k := 179 } }
    s.seq.phase = .busy ∧ s.seq.recs[s.seq.k]? = some ⟨false, 2⟩ ∧ s.seq.recs[s.seq.k + 1]? = some ⟨false, 75⟩ ∧
      u.seq.phase = .busy ∧ u.seq.recs[u.seq.k]? = some ⟨false, 75⟩ ∧ u.seq.recs[u.seq.k + 1]? = none := by
  decide +kernel

/-- The rounds of R102 on the all-zero block and key, which they leave fixed, under both readings (V-STD-5). -/
theorem witness_StdEncIsTheStatedRecurrence : ∀ c : Cfg,
    false = ((match c.stdTapReading with
        | .shiftMask => nlfAt 0 1 9 20 26 31
        | .literal => nlfAt 0 1 8 18 23 27) ^^ (0 : Word).getLsbD 0 ^^ (0 : Word).getLsbD 16 ^^ (0 : DWord).getLsbD 0) ∧
    (∀ j < 31, (0 : Word).getLsbD j = (0 : Word).getLsbD (j + 1)) ∧ (0 : Word).getLsbD 31 = false ∧
    (0 : DWord) = (0 : DWord).rotateRight 1 := by
  intro c
  refine ⟨?_, by decide, by decide, by decide⟩
  cases c.stdTapReading <;> decide

/-- The rounds of R103 on the all-zero block and key (V-STD-5). -/
theorem witness_StdDecIsTheStatedRecurrence : ∀ c : Cfg,
    false = ((match c.stdTapReading with
        | .shiftMask => nlfAt 0 0 8 19 25 30
        | .literal => nlfAt 0 0 7 17 22 26) ^^ (0 : Word).getLsbD 31 ^^ (0 : Word).getLsbD 15 ^^ (0 : DWord).getLsbD 15) ∧
    (∀ j < 31, (0 : Word).getLsbD (j + 1) = (0 : Word).getLsbD j) ∧ (0 : Word).getLsbD 0 = false ∧
    (0 : DWord) = (0 : DWord).rotateLeft 1 := by
  intro c
  refine ⟨?_, by decide, by decide, by decide⟩
  cases c.stdTapReading <;> decide

/-- The all-zero state and table, which ShiftLeft leaves fixed (V-SCR-5). -/
theorem witness_ShiftLeftIsTheStatedRecurrence :
    let T : Table := Vector.replicate 8 0
    let S : Nat → CState := fun _ => ⟨0, 0, 0, 0⟩
    let mix : Nat → Byte := fun _ => 0
    (∀ o < 66, mix (8 * o) = T[(1 + 7 * o) % 8]'(Nat.mod_lt _ (by decide)) ∧
      ∀ i < 7, mix (8 * o + i + 1) = mix (8 * o + i) <<< 1) ∧
    ∀ n < 528, IsLeftStep (mix n) (S n) (S (n + 1)) := by
  have h : IsLeftStep 0 ⟨0, 0, 0, 0⟩ ⟨0, 0, 0, 0⟩ := by
    unfold IsLeftStep
    decide
  exact ⟨fun o _ => ⟨by simp, fun i _ => by simp⟩, fun n _ => h⟩

/-- The all-zero state and table, which ShiftRight leaves fixed (V-SCR-5). -/
theorem witness_ShiftRightIsTheStatedRecurrence :
    let T : Table := Vector.replicate 8 0
    let S : Nat → CState := fun _ => ⟨0, 0, 0, 0⟩
    let mix : Nat → Byte := fun _ => 0
    (∀ o < 66, mix (8 * o) = T[o % 8]'(Nat.mod_lt _ (by decide)) ∧
      ∀ i < 7, mix (8 * o + i + 1) = mix (8 * o + i) >>> 1) ∧
    ∀ n < 528, IsRightStep (mix n) (S n) (S (n + 1)) := by
  have h : IsRightStep 0 ⟨0, 0, 0, 0⟩ ⟨0, 0, 0, 0⟩ := by
    unfold IsRightStep
    decide
  exact ⟨fun o _ => ⟨by simp, fun i _ => by simp⟩, fun n _ => h⟩

theorem witness_ScrambleDirectionsAreInverse : cfg.scrLeft.invertible cfg.scrRight = true := by decide

/-- A running BUILD, its end, and a running DECODE of what it built. -/
theorem witness_BuildThenDecodeRestoresCounter :
    let s := started .build sample
    let t := finished .build sample
    let u : State := { started .decode sample with payload0 := t.payload0 }
    s.seq.phase = .busy ∧ exec .build s = .next t ∧ u.seq.phase = .busy ∧ u.serial = s.serial ∧ u.dkey = s.dkey ∧
      u.payload0 = t.payload0 ∧ exec .decode u = .next (nextState (exec .decode u)) := by
  intro s t u
  have hHi : u.dkeyHi = s.dkeyHi := rfl
  have hLo : u.dkeyLo = s.dkeyLo := rfl
  exact ⟨rfl, exec_nextState .build s, rfl, rfl, by rw [State.dkey, hHi, hLo, State.dkey], rfl, exec_nextState .decode u⟩

theorem witness_CounterChangesCiphertext : (0xFFFF : BitVec 16) ≠ 0x0000 := by decide

theorem witness_PulseTotalIsIndependentOfPayload :
    cfg.headerGapTicks < 2 ^ 32 ∧ cfg.shortTicks < 2 ^ 32 ∧ cfg.longTicks < 2 ^ 32 ∧ cfg.tailGapTicks < 2 ^ 32 := by
  decide

theorem witness_PulseEmitsEveryRecordThenCompletes :
    let s := scheduled (List.replicate 180 .transfer ++ [.host]) [] (started .pulse sample)
    s.seq.phase = .busy ∧ s.running = some .pulse ∧ s.seq.k = 0 ∧ s.seq.recs ≠ [] ∧
      s.turns = List.replicate s.seq.recs.length .transfer ++ [.host] := by
  decide +kernel

/-- Each of the three turns and the schedule that has run out, the host's access being no soft reset. -/
theorem witness_PulseWithoutTransferNeverCompletes :
    (∀ ts ∈ [[], [Turn.complete], [.tick], [.host]],
      let s := scheduled ts [regWrite .block 0x12345678] (started .pulse sample)
      s.seq.phase = .busy ∧ s.running = some .pulse ∧ s.turns.head? ∈ [none, some .complete, some .tick, some .host] ∧
        step s = .next (nextState (step s))) ∧
    Reg.block.offset ≠ 0x08 := by
  refine ⟨?_, by decide⟩
  intro ts h
  simp only [List.mem_cons, List.not_mem_nil, or_false] at h
  rcases h with rfl | rfl | rfl | rfl <;> exact ⟨rfl, rfl, by decide, rfl⟩

/-- A misaligned access, a partial one, and one that is both: each condition alone and the two together. -/
theorem witness_BadAccessIsRefusedAndRecorded :
    (0x05 : Byte).extractLsb' 0 2 ≠ 0 ∧ (0x04 : Byte).extractLsb' 0 2 = 0 ∧ (0b0111 : BitVec 4) ≠ 0b1111 ∧
      access ⟨true, 0x05, 0b0111, 0⟩ sample =
        .next { sample with faults := [.misaligned 0x05, .partialAccess 0x05], reply := .refused true } ∧
      access ⟨false, 0x04, 0b0111, 0⟩ sample =
        .next { sample with faults := [.partialAccess 0x04], reply := .refused false } :=
  ⟨by decide, by decide, by decide, rfl, rfl⟩

/-- A running command; a word with SRST = 0; the reserved offsets at their ends. -/
theorem witness_WritesAreDroppedWhileBusy :
    (started .stdEnc sample).seq.phase = .busy ∧ (0x00000001 : Word).getLsbD 1 = false ∧
      (0x3C : Byte).extractLsb' 0 2 = 0 ∧ (0x50 : Byte).extractLsb' 0 2 = 0 ∧ (0x50 : Byte) ≤ 0x50 ∧
      (0xFC : Byte).extractLsb' 0 2 = 0 ∧ (0x50 : Byte) ≤ 0xFC := by
  decide

theorem witness_ReadsWhileBusy :
    (started .derive sample).seq.phase = .busy ∧ (started .derive sample).running = some .derive ∧
      Reg.dkeyHi ∈ writeSet .derive ∧ Reg.keyHi ∉ writeSet .derive := by
  decide

/-- STATE read while STD_ENC runs, BLOCK written while Idle, KT0 written while Busy. -/
theorem witness_ReadsHaveNoSideEffects :
    let s := started .stdEnc sample
    (0x28 : Byte).extractLsb' 0 2 = 0 ∧
      (∀ (r : Reg) (i : Instr), r.offset = 0x28 → s.seq.phase = .busy → s.running = some i → r ∉ writeSet i) ∧
      access ⟨false, 0x28, 0b1111, 0⟩ s = .next (rd 0x28 s) ∧ sample.seq.phase = .idle ∧ Reg.block ≠ .cmd ∧
      Reg.block ≠ .status ∧ Reg.block ≠ .ctrl ∧ Reg.kt0.guarded = false ∧
      access ⟨true, Reg.kt0.offset, 0b1111, 1⟩ s = .next (wr Reg.kt0.offset 1 s) := by
  refine ⟨by decide, ?_, rfl, rfl, by decide, by decide, by decide, rfl, rfl⟩
  intro r i hr _ hi
  have hi' : i = .stdEnc := by
    have h : (started .stdEnc sample).running = some .stdEnc := rfl
    rw [h] at hi
    exact (Option.some.inj hi).symm
  subst hi'
  revert hr
  cases r <;> decide

theorem witness_RegisterMapReadsAndWrites :
    (0x3C : Byte).extractLsb' 0 2 = 0 ∧ (0xFC : Byte).extractLsb' 0 2 = 0 ∧ (0x50 : Byte) ≤ 0xFC ∧
      sample.seq.phase = .idle ∧ Reg.payload2 ≠ .cntbtn := by
  decide

theorem witness_CtrlWritesAndSoftReset :
    (0x00000001 : Word).getLsbD 1 = false ∧ (0x00000003 : Word).getLsbD 1 = true ∧ 1 ≤ 31 := by
  decide

/-- Each of the ways in which irq falls; a BUILD refused right after a refused BUILD; an illegal word. -/
theorem witness_InterruptFollowsDone :
    let s := { sample with button := 0x51, err := .invalidButton }
    (0x00000002 : Word).getLsbD 1 = true ∧
      access ⟨true, 0x04, 0b1111, 0x00000002⟩ sample = .next (wr 0x04 0x00000002 sample) ∧
      (0x00000000 : Word).getLsbD 0 = false ∧
      access ⟨true, 0x08, 0b1111, 0x00000000⟩ sample = .next (wr 0x08 0x00000000 sample) ∧
      sample.seq.phase = .idle ∧ legal 0x00000001 = true ∧
      writeCmd 0x00000001 sample = .next (nextState (writeCmd 0x00000001 sample)) ∧
      (nextState (writeCmd 0x00000001 sample)).seq.phase = .busy ∧
      Inv s ∧ exec .build s = .next (started .build s) ∧ (started .build s).err ≠ .none ∧
      legal 0x0000000C = false ∧ writeCmd 0x0000000C sample = .next (nextState (writeCmd 0x0000000C sample)) :=
  ⟨by decide, rfl, by decide, rfl, rfl, by decide, rfl, rfl, inv_of_idle rfl rfl List.nodup_nil, rfl, by decide, by decide,
    rfl⟩

theorem witness_ResetClearsTheBlock :
    (scheduled [.hardReset] [] (started .derive sample)).turns = [.hardReset] ∧
      (scheduled [.hostInReset] [regRead .block] (started .derive sample)).turns = [.hostInReset] ∧
      (scheduled [.hostInReset] [regRead .block] (started .derive sample)).host =
        [.bus ⟨false, 0x0C, 0b1111, 0⟩] ∧
      (0x00000002 : Word).getLsbD 1 = true := by
  decide

theorem witness_CommandsComputeOnZeroAfterReset :
    exec .stdEnc State.reset = .next (started .stdEnc State.reset) ∧
      exec .stdEnc (started .stdEnc State.reset) = .next (finished .stdEnc State.reset) ∧
      exec .expand State.reset = .next (started .expand State.reset) ∧
      exec .expand (started .expand State.reset) = .next (finished .expand State.reset) := ⟨rfl, rfl, rfl, rfl⟩

theorem witness_IdleBlockDoesNotMove :
    sample.seq.phase = .idle ∧ (scheduled [.complete] [] sample).turns = [.complete] ∧
      (scheduled [.tick] [] sample).turns = [.tick] ∧ (scheduled [.transfer] [] sample).turns = [.transfer] ∧
      sample.turns = [] :=
  ⟨rfl, rfl, rfl, rfl, rfl⟩

/-- A running command whose host reads, and a running PULSE at a transfer. -/
theorem witness_InputsStandWhileBusy :
    let s := scheduled [.host] [regRead .keyLo] (started .derive sample)
    let u := scheduled [.transfer] [] (started .pulse sample)
    s.seq.phase = .busy ∧ step s = .next (nextState (step s)) ∧ (nextState (step s)).seq.phase = .busy ∧
      u.seq.phase = .busy ∧ step u = .next (nextState (step u)) ∧ (nextState (step u)).seq.phase = .busy ∧
      u.running = some .pulse := by
  exact ⟨rfl, rfl, rfl, rfl, rfl, by decide +kernel, rfl⟩

theorem witness_OnlyTheHostWritesKeySerialCounter :
    ∀ ts ∈ [[], [Turn.complete], [.tick], [.transfer]],
      let s := scheduled ts [] (started .encPayload sample)
      s.turns.head? ∈ [none, some .complete, some .tick, some .transfer] ∧ step s = .next (nextState (step s)) := by
  intro ts h
  simp only [List.mem_cons, List.not_mem_nil, or_false] at h
  rcases h with rfl | rfl | rfl | rfl <;> exact ⟨by decide, rfl⟩

/-- A running EXPAND that completes: its key table changes. -/
def expandRunning : State := scheduled [.complete] [] (started .expand sample)

theorem inv_expandRunning : Inv expandRunning := by
  refine ⟨?_, ?_, by decide⟩
  · unfold PortInv
    rw [if_neg (by decide)]
    rfl
  · intro _
    exact ⟨rfl, rfl, rfl, .expand, by decide, by decide, by decide,
      datapathInv_of (kind := .left) (by decide) (fun h => absurd h (by decide)) (by decide) (by decide +kernel)⟩

/-- Both ways in which KT changes: the completion of one of the five commands, and a reset. -/
theorem witness_OnlyFiveCommandsWriteKeyTable :
    Inv expandRunning ∧ step expandRunning = .next (nextState (step expandRunning)) ∧
      (nextState (step expandRunning)).kt ≠ expandRunning.kt ∧
      Inv (scheduled [.hardReset] [] { sample with kt := Vector.replicate 16 1 }) ∧
      (resetBlock sample).kt ≠ Vector.replicate 16 1 ∧
      exec .expand (started .expand sample) = .next (finished .expand sample) :=
  ⟨inv_expandRunning, rfl, by decide +kernel, inv_of_idle rfl rfl List.nodup_nil, by decide, rfl⟩

/-- A dropped write: WERR rises. -/
theorem witness_WerrFaultsAndOutputHistory :
    let s := scheduled [.host] [regWrite .block 1] (started .derive sample)
    step s = .next (nextState (step s)) ∧ s.werr = false ∧ (nextState (step s)).werr = true := by
  exact ⟨rfl, rfl, rfl⟩

theorem witness_StepKeepsTheInvariant :
    Inv expandRunning ∧ step expandRunning = .next (nextState (step expandRunning)) := ⟨inv_expandRunning, rfl⟩

theorem lastCycle_facts :
    lastCycle.seq.phase = .busy ∧ lastCycle.running = some .stdEnc ∧ lastCycle.seq.pass = lastPass .stdEnc ∧
      lastCycle.seq.r = 527 ∧ lastCycle.port.valid = false ∧ lastCycle.doneFlag = false ∧ lastCycle.err = .none ∧
      lastCycle.lastop = lastCycle.seq.op ∧ lastCycle.faults = [] := by
  decide +kernel

theorem lastCycle_seq :
    lastCycle.seq =
      times (bitStep .enc (passTable .stdEnc lastCycle.seq.pass lastCycle lastCycle.seq)) lastCycle.seq.r.val
        (loadPass .stdEnc lastCycle.seq.pass lastCycle lastCycle.seq) := by
  decide +kernel

theorem inv_lastCycle : Inv lastCycle := by
  obtain ⟨_, h2, h3, _, h5, h6, h7, h8, h9⟩ := lastCycle_facts
  refine ⟨?_, fun _ => ⟨h6, h7, h8, .stdEnc, h2, by decide, by decide, ?_⟩, by rw [h9]; exact List.nodup_nil⟩
  · simp [PortInv, h2, h5]
  · exact datapathInv_of (kind := .enc) (le_of_eq h3) trivial rfl lastCycle_seq

theorem witness_LastCycleCommitsWhatCompleteCommits :
    Inv lastCycle ∧ lastCycle.seq.phase = .busy ∧ lastCycle.running = some .stdEnc ∧ Instr.stdEnc ≠ .pulse ∧
      lastCycle.seq.pass = lastPass .stdEnc ∧ lastCycle.seq.r = 527 :=
  ⟨inv_lastCycle, lastCycle_facts.1, lastCycle_facts.2.1, by decide, lastCycle_facts.2.2.1, lastCycle_facts.2.2.2.1⟩

theorem witness_CommandsTakeTheirLatency :
    sample.seq.phase = .idle ∧ Instr.build ≠ .nop ∧ Instr.build ≠ .pulse ∧
      exec .build sample = .next (started .build sample) ∧ (started .build sample).seq.phase = .busy ∧
      exec .build (started .build sample) = .next (finished .build sample) :=
  ⟨rfl, by decide, by decide, rfl, by decide, rfl⟩

/-- A DERIVE whose host only reads: the schedule runs out while it is running, and it completes then. -/
theorem witness_EveryCommandEventuallyCompletes :
    let s := scheduled [.host] [regRead .keyLo] (started .derive sample)
    s.seq.phase = .busy ∧ s.running = some .derive ∧ Instr.derive ≠ .pulse ∧
      (nextState (step s)).seq.phase = .busy ∧ (nextState (step (nextState (step s)))).seq.phase = .idle :=
  ⟨rfl, rfl, by decide, rfl, rfl⟩

end Sys2Proof.Tests
end

section
/-! The moves of the machine, each lemma saying once what one move can do. -/

namespace Sys2Proof.Machine

/-! ## Steps and turns -/

/-- A step is a turn: the schedule's next one, or Complete where the schedule has run out. -/
theorem step_eq_takeTurn (s : State) :
    step s = takeTurn (s.turns.head?.getD .complete) { s with turns := s.turns.tail } := by
  obtain ⟨⟩ := s
  rename_i turns _
  cases turns <;> rfl

/-- The encoder's word of a command decodes to it. -/
theorem decodeWord_encode (i : Instr) : decodeWord (encode i) = .ok i := by
  cases i with
  | scrL t => exact Laws.RoundTrip.scrL t
  | scrR t => exact Laws.RoundTrip.scrR t
  | _ => rfl

/-- Only the register that stands there is found at an offset. -/
theorem eq_offset_of_regAt {off : Byte} {r : Reg} (h : regAt off = some r) : off = r.offset := by
  have table : ∀ off : Byte, ∀ r ∈ regAt off, off = r.offset := by decide
  exact table off r h

/-! ## The host's access -/

/-- What an access can do: it is refused, or it reads, or it writes a reserved offset, CMD or another register. -/
inductive AccessMove (a : BusAccess) (s : State) : State → Prop
  | refused (h : a.faults ≠ []) : AccessMove a s (refuseAccess a.we a.faults s)
  | read (h : a.faults = []) (hw : a.we = false) : AccessMove a s (busRead a.addr s)
  | reserved (h : a.faults = []) (hw : a.we = true) : AccessMove a s { s with reply := .written }
  | command {t : State} (h : a.faults = []) (hw : a.we = true) (ha : a.addr = Reg.cmd.offset)
      (ht : writeCmd a.wdata { s with reply := .written } = .next t) : AccessMove a s t
  | register {r : Reg} (h : a.faults = []) (hw : a.we = true) (ha : a.addr = r.offset) :
      AccessMove a s (writeReg r a.wdata { s with reply := .written })

theorem access_move {a : BusAccess} {s t : State} (h : access a s = .next t) : AccessMove a s t := by
  unfold access at h
  split at h
  next hf =>
    split at h
    next hw =>
      unfold busWrite at h
      split at h
      next => cases h; exact .reserved hf hw
      next hr => exact .command hf hw (eq_offset_of_regAt hr) h
      next hr => cases h; exact .register hf hw (eq_offset_of_regAt hr)
    next hw => cases h; exact .read hf (by simpa using hw)
  next hf => cases h; rw [← hf]; exact .refused (by simp [hf])

/-- What a write of CMD can do: it is dropped, it completes with ILLEGAL_CMD, or it presents a command. -/
theorem writeCmd_cases {w : Word} {s t : State} (h : writeCmd w s = .next t) :
    (s.seq.phase = .busy ∧ t = { s with werr := true }) ∨
    (s.seq.phase = .idle ∧ t = complete .illegalCmd (presented (opField w) s)) ∨
    (s.seq.phase = .idle ∧ ∃ i, exec i s = .next t) := by
  unfold writeCmd at h
  split at h
  next hb => cases h; exact .inl ⟨hb, rfl⟩
  next hi =>
    unfold presentWord at h
    split at h
    next i _ => exact .inr (.inr ⟨hi, i, h⟩)
    next => cases h; exact .inr (.inl ⟨hi, rfl⟩)

/-- What the host's turn can do: at most its next access; all else is the outside's own bookkeeping. -/
theorem hostTurn_cases {s t : State} (h : hostTurn s = .next t) :
    (∃ a rest, s.host = .bus a :: rest ∧ access a { s with host := rest } = .next t) ∨
    (∃ hs rep n, t = { s with host := hs, reply := rep, draws := n }) := by
  unfold hostTurn at h
  split at h
  next => cases h; exact .inr ⟨s.host, s.reply, s.draws, rfl⟩
  next a rest hs => exact .inl ⟨a, rest, hs, h⟩
  next rest hs =>
    cases h
    refine .inr ?_
    unfold pollStatus
    obtain ⟨v, e⟩ | e := busRead_cases Reg.status.offset s <;> rw [e] <;> split <;> exact ⟨_, _, _, rfl⟩
  next rest hs =>
    cases h
    refine .inr ?_
    split
    · exact ⟨rest, s.reply, s.draws, rfl⟩
    · exact ⟨s.host, s.reply, s.draws, rfl⟩

/-- An access during reset leaves the reset block, with the host's plan and the bus answer moved on. -/
theorem hostInReset_cases (s : State) :
    ∃ hs rep, hostInReset s = { resetBlock s with host := hs, reply := rep } := by
  unfold hostInReset
  split <;> exact ⟨_, _, rfl⟩

/-! ## The commands -/

/-- `t` is `s` with a command completed: STATUS, the phase and the registers of the write sets are all that differs. -/
def CompletesInto (s t : State) : Prop :=
  t = complete t.err
    { s with
      block := t.block, dkeyLo := t.dkeyLo, dkeyHi := t.dkeyHi, cstate := t.cstate, decCounter := t.decCounter
      decButton := t.decButton, payload0 := t.payload0, payload1 := t.payload1, payload2 := t.payload2, kt := t.kt }

theorem commitBlock_completesInto (v : Word) (s : State) : CompletesInto s (commitBlock v s) := rfl

theorem commitDkey_completesInto (k : DWord) (s : State) : CompletesInto s (commitDkey k s) := rfl

theorem commitExpand_completesInto (kt : KeyTable) (s : State) : CompletesInto s (commitExpand kt s) := rfl

theorem commitScramble_completesInto (S : CState) (s : State) : CompletesInto s (commitScramble S s) := rfl

theorem commitEncPayload_completesInto (kt : KeyTable) (C : CState) (s : State) :
    CompletesInto s (commitEncPayload kt C s) := rfl

theorem commitBuild_completesInto (kt : KeyTable) (C : CState) (P : PayloadBytes) (s : State) :
    CompletesInto s (commitBuild kt C P s) := rfl

theorem commitDecoded_completesInto (d : Decoded) (s : State) : CompletesInto s (commitDecoded d s) := by
  cases h : d.ok with
  | true => rw [commitDecoded_ok h]; rfl
  | false => rw [commitDecoded_failed h]; rfl

/-- Complete of a command other than PULSE. -/
theorem exec_busy {i : Instr} {s : State} (h : s.seq.phase = .busy) (hi : i ≠ .pulse) :
    ∃ t, exec i s = .next t ∧ CompletesInto s t := by
  unfold exec
  cases i with
  | nop => exact ⟨_, commandTurn_busy h, rfl⟩
  | stdEnc => exact ⟨_, commandTurn_busy h, commitBlock_completesInto ..⟩
  | stdDec => exact ⟨_, commandTurn_busy h, commitBlock_completesInto ..⟩
  | derive => exact ⟨_, commandTurn_busy h, commitDkey_completesInto ..⟩
  | expand => exact ⟨_, commandTurn_busy h, commitExpand_completesInto ..⟩
  | scrL => exact ⟨_, commandTurn_busy h, commitScramble_completesInto ..⟩
  | scrR => exact ⟨_, commandTurn_busy h, commitScramble_completesInto ..⟩
  | encPayload => exact ⟨_, commandTurn_busy h, commitEncPayload_completesInto ..⟩
  | decPayload => exact ⟨_, commandTurn_busy h, commitDecoded_completesInto ..⟩
  | build => exact ⟨_, commandTurn_busy h, commitBuild_completesInto ..⟩
  | decode => exact ⟨_, commandTurn_busy h, commitDecoded_completesInto ..⟩
  | pulse => exact absurd rfl hi

/-- The command's move when PULSE is the one running. -/
theorem exec_pulse_busy {s : State} (h : s.seq.phase = .busy) : exec .pulse s = .next (transfer s) := by
  unfold exec
  exact commandTurn_busy h

theorem commitDatapath_completesInto {i : Instr} (hi : i ≠ .pulse) (s : State) : CompletesInto s (commitDatapath i s) := by
  cases i with
  | nop => rfl
  | stdEnc => exact commitBlock_completesInto ..
  | stdDec => exact commitBlock_completesInto ..
  | derive => exact commitDkey_completesInto ..
  | expand => exact commitExpand_completesInto ..
  | scrL => exact commitScramble_completesInto ..
  | scrR => exact commitScramble_completesInto ..
  | encPayload => exact commitEncPayload_completesInto ..
  | decPayload => exact commitDecoded_completesInto ..
  | build => exact commitBuild_completesInto ..
  | decode => exact commitDecoded_completesInto ..
  | pulse => exact absurd rfl hi

/-- What presenting a command to an Idle block can do: it completes at once, is accepted, or is PULSE, which also offers its
first record. -/
theorem exec_idle_cases {i : Instr} {s t : State} (h : s.seq.phase = .idle) (ht : exec i s = .next t) :
    (∃ code, t = complete code (presented (opcodeOf i) s)) ∨
    (i ≠ .nop ∧ i ≠ .pulse ∧ (i = .build → buttonRefused cfg s.button = false) ∧ t = accept i s) ∨
    (i = .pulse ∧ t = { accept .pulse s with port := offered (accept .pulse s).seq.recs 0 }) := by
  have next {f g : State → State} (e : commandTurn f g s = .next t) : t = f s := by
    rw [commandTurn_idle h] at e; cases e; rfl
  unfold exec at ht
  cases i with
  | nop => exact .inl ⟨_, next ht⟩
  | pulse => exact .inr (.inr ⟨rfl, next ht⟩)
  | build =>
    have e := next ht
    split at e
    next => exact .inl ⟨_, e⟩
    next hb => exact .inr (.inl ⟨by simp, by simp, fun _ => by simpa using hb, e⟩)
  | _ => exact .inr (.inl ⟨by simp, by simp, by simp, next ht⟩)

/-! ## The sequencer's turns -/

theorem transferTurn_cases (s : State) :
    (s.seq.phase = .busy ∧ s.running = some .pulse ∧ transferTurn s = .next (transfer s)) ∨ transferTurn s = .next s := by
  unfold transferTurn
  split
  next => exact .inr rfl
  next hb =>
    split
    next => exact .inr rfl
    next i hi =>
      split
      next hp => subst hp; exact .inl ⟨hb, hi, exec_pulse_busy hb⟩
      next => exact .inr rfl

theorem tickTurn_cases (s : State) :
    (∃ i, s.seq.phase = .busy ∧ s.running = some i ∧ tickTurn s = cycle i s) ∨ tickTurn s = s := by
  unfold tickTurn
  split
  next => exact .inr rfl
  next hb =>
    split
    next => exact .inr rfl
    next i hi => exact .inl ⟨i, hb, hi, rfl⟩

/-- The state after the bit-step of a cycle, before what the end of a pass adds. -/
def bitStepped (i : Instr) (kind : PassKind) (s : State) : State :=
  { s with seq := bitStep kind (passTable i s.seq.pass s s.seq) s.seq }

/-- The state at the start of the next pass: the finished pass saved, the new one loaded. -/
def nextPass (i : Instr) (s : State) : State :=
  { s with seq := loadPass i (s.seq.pass + 1) s { savePass i s.seq with pass := s.seq.pass + 1 } }

/-- What a clock cycle can do: nothing, a bit-step inside a pass, one that ends a pass, or one that ends the command. -/
inductive CycleMove (i : Instr) (s : State) : State → Prop
  | still (hk : passKind i s.seq.pass = none) : CycleMove i s s
  | inPass {kind : PassKind} (hk : passKind i s.seq.pass = some kind) (hr : s.seq.r ≠ 527) :
      CycleMove i s (bitStepped i kind s)
  | endOfPass {kind : PassKind} (hk : passKind i s.seq.pass = some kind) (hr : s.seq.r = 527)
      (hp : s.seq.pass ≠ lastPass i) : CycleMove i s (nextPass i (bitStepped i kind s))
  | endOfCommand {kind : PassKind} (hk : passKind i s.seq.pass = some kind) (hr : s.seq.r = 527)
      (hp : s.seq.pass = lastPass i) : CycleMove i s (commitDatapath i (bitStepped i kind s))

@[simp] theorem bitStepped_pass (i : Instr) (kind : PassKind) (s : State) : (bitStepped i kind s).seq.pass = s.seq.pass :=
  (bitStep_keeps kind _ s.seq).2.2.2.1

theorem cycle_move (i : Instr) (s : State) : CycleMove i s (cycle i s) := by
  unfold cycle
  split
  next hk => exact .still hk
  next kind hk =>
    change CycleMove i s (afterBitStep i (s.seq.r == 527) (bitStepped i kind s))
    unfold afterBitStep
    rw [bitStepped_pass]
    split
    next hr =>
      have hr : s.seq.r = 527 := by simpa using hr
      split
      next hp => exact .endOfCommand hk hr hp
      next hp => rw [← bitStepped_pass i kind s]; exact .endOfPass hk hr hp
    next hr => exact .inPass hk (by simpa using hr)

end Sys2Proof.Machine
end

section
/-! What a whole pass of the bit-serial datapath computes. -/

namespace Sys2Proof.Machine

/-- `n` rounds of the sequencer are `n` rounds of the function on its block and key copy. -/
theorem times_stdCycle (rnd : Word × DWord → Word × DWord) (n : Nat) (q : Seq) :
    ((times (stdCycle rnd) n q).blk, (times (stdCycle rnd) n q).kc) = times rnd n (q.blk, q.kc) := by
  induction n with
  | zero => rfl
  | succ n ih => rw [times, times, ← ih]; rfl

/-- A decrypt pass computes StdDec. -/
theorem times_bitStep_dec (T : Table) (b : Word) (k : DWord) (q : Seq) :
    (times (bitStep .dec T) 528 (loadStd b k q)).blk = stdDec cfg b k :=
  congrArg Prod.fst (times_stdCycle (decRound (decTaps cfg.stdTapReading)) 528 (loadStd b k q))

section
variable (stp : CState × Byte → CState × Byte) (next : Fin 8 → Fin 8) (T : Table)

/-- One bit-step of a scramble pass in either direction. -/
def scrambleBit (q : Seq) : Seq := scrambleCycle stp (startOuter T next q)

/-- One outer round of a scramble pass in either direction. -/
def outerRound (x : CState × Fin 8) : CState × Fin 8 := ((times stp 8 (x.1, T[x.2])).1, next x.2)

@[simp] theorem scrambleBit_i (q : Seq) : (scrambleBit stp next T q).i = q.i + 1 := by
  unfold scrambleBit startOuter
  split <;> rfl

theorem scrambleBit_starts {q : Seq} (h : q.i = 0) :
    (scrambleBit stp next T q).work = (stp (q.work, T[q.p])).1 ∧
      (scrambleBit stp next T q).mix = (stp (q.work, T[q.p])).2 ∧ (scrambleBit stp next T q).p = next q.p := by
  simp [scrambleBit, startOuter, scrambleCycle, h]

theorem scrambleBit_continues {q : Seq} (h : q.i ≠ 0) :
    (scrambleBit stp next T q).work = (stp (q.work, q.mix)).1 ∧
      (scrambleBit stp next T q).mix = (stp (q.work, q.mix)).2 ∧ (scrambleBit stp next T q).p = q.p := by
  simp [scrambleBit, startOuter, scrambleCycle, h]

theorem times_scrambleBit_i (n : Nat) (q : Seq) (h : q.i = 0) :
    (times (scrambleBit stp next T) n q).i.val = n % 8 := by
  induction n with
  | zero => simp [times, h]
  | succ n ih => rw [times, scrambleBit_i, Fin.val_add, ih]; simp

/-- Inside an outer round the datapath takes the inner steps on the mix byte its first bit-step loaded. -/
theorem times_scrambleBit_inner {q : Seq} (h : q.i = 0) {n : Nat} (h0 : 0 < n) (h8 : n ≤ 8) :
    (times (scrambleBit stp next T) n q).work = (times stp n (q.work, T[q.p])).1 ∧
      (times (scrambleBit stp next T) n q).mix = (times stp n (q.work, T[q.p])).2 ∧
      (times (scrambleBit stp next T) n q).p = next q.p := by
  induction n, h0 using Nat.le_induction with
  | base => exact scrambleBit_starts stp next T h
  | succ n hn ih =>
    obtain ⟨hwork, hmix, hp⟩ := ih (by omega)
    have hi : (times (scrambleBit stp next T) n q).i ≠ 0 := by
      intro hz
      have hv := times_scrambleBit_i stp next T n q h
      rw [hz, Nat.mod_eq_of_lt h8] at hv
      exact absurd hv.symm (Nat.ne_of_gt hn)
    have hstep := scrambleBit_continues stp next T hi
    rw [hwork, hmix, hp] at hstep
    exact hstep

/-- Eight bit-steps from the start of an outer round are that round. -/
theorem times_scrambleBit_outer {q : Seq} (h : q.i = 0) (n : Nat) :
    (times (scrambleBit stp next T) (8 * n) q).work = (times (outerRound stp next T) n (q.work, q.p)).1 ∧
      (times (scrambleBit stp next T) (8 * n) q).p = (times (outerRound stp next T) n (q.work, q.p)).2 := by
  induction n with
  | zero => exact ⟨rfl, rfl⟩
  | succ n ih =>
    obtain ⟨hwork, hp⟩ := ih
    have hi : (times (scrambleBit stp next T) (8 * n) q).i = 0 := by
      apply Fin.ext
      rw [times_scrambleBit_i stp next T _ q h]
      simp
    obtain ⟨hwork', -, hp'⟩ := times_scrambleBit_inner stp next T hi (n := 8) (by omega) le_rfl
    rw [Nat.mul_succ, Nat.add_comm, times_add]
    simp only [hwork', hp', hwork, hp]
    exact ⟨rfl, rfl⟩

end

/-- A left pass from index 1 computes ShiftLeft. -/
theorem times_bitStep_left (T : Table) (S : CState) (q : Seq) :
    (times (bitStep .left T) 528 (loadScramble S 1 q)).work = shiftLeft cfg S T := by
  have hbit : bitStep .left T = scrambleBit (leftStep cfg.scrLeft) (· - 1) T := rfl
  have hround : leftOuter cfg.scrLeft T = outerRound (leftStep cfg.scrLeft) (· - 1) T := rfl
  obtain ⟨h, -⟩ := times_scrambleBit_outer (leftStep cfg.scrLeft) (· - 1) T (q := loadScramble S 1 q) rfl 66
  rw [show 8 * 66 = 528 from rfl] at h
  rw [shiftLeft, hround, hbit]
  exact h

end Sys2Proof.Machine
end

section
/-! The invariant of the block, move by move. -/

namespace Sys2Proof.Machine

/-! ## Loading a pass, and the bit-steps after it -/

/-- A pass loads the StandardCipher's registers or the scramble datapath, by its kind. -/
theorem loadPass_of_kind {i : Instr} {n : Fin 3} {kind : PassKind} (hk : passKind i n = some kind) (s : State) :
    ((kind = .enc ∨ kind = .dec) ∧ ∃ b k, loadPass i n s = loadStd b k) ∨
      ((kind = .left ∨ kind = .right) ∧ ∃ S p, loadPass i n s = loadScramble S p) := by
  cases i with
  | nop | pulse => cases hk
  | stdEnc => cases hk; exact .inl ⟨.inl rfl, _, _, rfl⟩
  | stdDec | derive => cases hk; exact .inl ⟨.inr rfl, _, _, rfl⟩
  | expand | scrL => cases hk; exact .inr ⟨.inl rfl, _, _, rfl⟩
  | scrR => cases hk; exact .inr ⟨.inr rfl, _, _, rfl⟩
  | encPayload | build | decPayload | decode =>
    match n with
    | 0 => cases hk; exact .inr ⟨.inl rfl, _, _, rfl⟩
    | 1 => cases hk; exact .inr ⟨.inl rfl, _, _, rfl⟩
    | 2 => cases hk; exact .inr ⟨by simp, _, _, rfl⟩

theorem loadPass_r {i : Instr} {n : Fin 3} {kind : PassKind} (hk : passKind i n = some kind) (s : State) (q : Seq) :
    (loadPass i n s q).r = 0 := by
  obtain ⟨-, b, k, e⟩ | ⟨-, S, p, e⟩ := loadPass_of_kind hk s <;> rw [e] <;> rfl

/-- Loading a pass again changes nothing. -/
theorem loadPass_loadPass (i : Instr) (n : Fin 3) (s : State) (q : Seq) :
    loadPass i n s (loadPass i n s q) = loadPass i n s q := by
  cases i with
  | encPayload | decPayload | build | decode =>
    match n with
    | 0 | 1 | 2 => rfl
  | _ => rfl

/-- Loading a pass keeps what the finished passes left. -/
theorem loadPass_keepsResults (i : Instr) (n : Fin 3) (s : State) (q : Seq) :
    (loadPass i n s q).acc = q.acc ∧ (loadPass i n s q).half0 = q.half0 ∧ (loadPass i n s q).half1 = q.half1 := by
  cases i with
  | encPayload | decPayload | build | decode =>
    match n with
    | 0 | 1 | 2 => exact ⟨rfl, rfl, rfl⟩
  | _ => exact ⟨rfl, rfl, rfl⟩

/-- The table of a pass depends on the sequencer through the two expansion results alone. -/
theorem passTable_eq_of_halves {q q' : Seq} (h0 : q'.half0 = q.half0) (h1 : q'.half1 = q.half1) (i : Instr) (n : Fin 3)
    (s : State) : passTable i n s q' = passTable i n s q := by
  cases i <;> simp only [passTable, h0, h1]

/-- Loading a pass one bit-step later leads to the same first bit-step: the only register that loading leaves alone, the mix
byte, is written by it. -/
theorem bitStep_loadPass_bitStep {i : Instr} {n : Fin 3} {kind : PassKind} (hk : passKind i n = some kind) (s : State)
    (T : Table) (q : Seq) :
    bitStep kind T (loadPass i n s (bitStep kind T q)) = bitStep kind T (loadPass i n s q) := by
  obtain ⟨hkind, b, k, e⟩ | ⟨hkind, S, p, e⟩ := loadPass_of_kind hk s <;> rw [e]
  · obtain rfl | rfl := hkind <;> rfl
  · by_cases hi : q.i = 0
    · obtain rfl | rfl := hkind <;> simp [bitStep, scrambleCycle, startOuter, loadScramble, hi]
    · obtain rfl | rfl := hkind <;> simp [bitStep, scrambleCycle, startOuter, loadScramble, hi]

/-! ## The datapath's part of the invariant -/

theorem datapathInv_iff {i : Instr} {s : State} {kind : PassKind} (hk : passKind i s.seq.pass = some kind) :
    DatapathInv i s ↔ s.seq.pass ≤ lastPass i ∧ PassesInv i s ∧
      s.seq = times (bitStep kind (passTable i s.seq.pass s s.seq)) s.seq.r.val (loadPass i s.seq.pass s s.seq) := by
  simp only [DatapathInv, hk]

/-- In its first pass a command has no finished pass. -/
theorem passesInv_of_firstPass {s : State} (h : s.seq.pass = 0) (i : Instr) : PassesInv i s := by
  cases i <;> simp [PassesInv, h]

/-- A pass just loaded is where no bit-step has brought it. -/
theorem datapathInv_of_loaded {i : Instr} {s : State} {q : Seq} (hp : s.seq.pass ≤ lastPass i) (hv : PassesInv i s)
    (e : s.seq = loadPass i s.seq.pass s q) : DatapathInv i s := by
  cases hk : passKind i s.seq.pass with
  | none => exact ⟨hp, hv, by rw [hk]; trivial⟩
  | some kind =>
    have hr : s.seq.r = 0 := by rw [e]; exact loadPass_r hk s q
    refine (datapathInv_iff hk).2 ⟨hp, hv, ?_⟩
    rw [hr]
    change s.seq = loadPass i s.seq.pass s s.seq
    calc s.seq = loadPass i s.seq.pass s q := e
      _ = loadPass i s.seq.pass s (loadPass i s.seq.pass s q) := (loadPass_loadPass ..).symm
      _ = loadPass i s.seq.pass s s.seq := by rw [← e]

/-- One bit-step more is one repetition more from the start of the pass. -/
theorem bitStepped_seq {i : Instr} {s : State} {kind : PassKind} (hk : passKind i s.seq.pass = some kind)
    (h : DatapathInv i s) :
    (bitStepped i kind s).seq =
      times (bitStep kind (passTable i s.seq.pass s s.seq)) (s.seq.r.val + 1) (loadPass i s.seq.pass s s.seq) := by
  obtain ⟨-, -, e⟩ := (datapathInv_iff hk).1 h
  exact congrArg (bitStep kind _) e

/-- Inside a pass the results of the finished ones stand. -/
theorem passesInv_bitStepped {i : Instr} {s : State} (kind : PassKind) (h : PassesInv i s) :
    PassesInv i (bitStepped i kind s) := by
  obtain ⟨-, -, -, hp, -, -, hacc, h0, h1⟩ := bitStep_keeps kind (passTable i s.seq.pass s s.seq) s.seq
  cases i with
  | derive => exact fun h' => hacc.trans (h (hp.symm.trans h'))
  | expand => exact fun h' => h0.trans (h (hp.symm.trans h'))
  | encPayload | decPayload | build | decode =>
    exact ⟨fun h' => h0.trans (h.1 (hp ▸ h')), fun h' => h1.trans (h.2 (hp.symm.trans h'))⟩
  | _ => trivial

theorem datapathInv_bitStepped {i : Instr} {s : State} {kind : PassKind} (hk : passKind i s.seq.pass = some kind)
    (hr : s.seq.r ≠ 527) (h : DatapathInv i s) : DatapathInv i (bitStepped i kind s) := by
  obtain ⟨hp, hv, -⟩ := (datapathInv_iff hk).1 h
  have hk' : passKind i (bitStepped i kind s).seq.pass = some kind := by rw [bitStepped_pass]; exact hk
  refine (datapathInv_iff hk').2 ⟨by rw [bitStepped_pass]; exact hp, passesInv_bitStepped kind hv, ?_⟩
  obtain ⟨-, -, -, -, -, -, -, h0, h1⟩ := bitStep_keeps kind (passTable i s.seq.pass s s.seq) s.seq
  have htable : passTable i s.seq.pass (bitStepped i kind s) (bitStepped i kind s).seq = passTable i s.seq.pass s s.seq :=
    passTable_eq_of_halves h0 h1 i s.seq.pass s
  have hcount : (bitStepped i kind s).seq.r.val = s.seq.r.val + 1 := by
    have hr' : (bitStepped i kind s).seq.r = s.seq.r + 1 := bitStep_r ..
    rw [hr', Fin.val_add_one, if_neg (by simpa [Fin.ext_iff] using hr)]
  rw [bitStepped_pass, htable, hcount, times_succ_apply]
  calc (bitStepped i kind s).seq
      = times (bitStep kind _) (s.seq.r.val + 1) (loadPass i s.seq.pass s s.seq) := bitStepped_seq hk h
    _ = times (bitStep kind _) s.seq.r.val (bitStep kind _ (loadPass i s.seq.pass s s.seq)) := times_succ_apply ..
    _ = _ := congrArg _ (bitStep_loadPass_bitStep hk s _ s.seq).symm

/-- A whole left pass from index 1 has shifted its seed. -/
theorem bitStepped_work_of_leftPass {i : Instr} {s : State} {S : CState} (hk : passKind i s.seq.pass = some .left)
    (hr : s.seq.r = 527) (h : DatapathInv i s) (hload : loadPass i s.seq.pass s = loadScramble S 1) :
    (bitStepped i .left s).seq.work = shiftLeft cfg S (passTable i s.seq.pass s s.seq) := by
  rw [bitStepped_seq hk h, hr, hload]
  exact times_bitStep_left ..

theorem bitStepped_blk_of_decPass {i : Instr} {s : State} {b : Word} {k : DWord} (hk : passKind i s.seq.pass = some .dec)
    (hr : s.seq.r = 527) (h : DatapathInv i s) (hload : loadPass i s.seq.pass s = loadStd b k) :
    (bitStepped i .dec s).seq.blk = stdDec cfg b k := by
  rw [bitStepped_seq hk h, hr, hload]
  exact times_bitStep_dec ..

/-! ## From one pass to the next -/

/-- The part of `nextPass` that the invariant reads: the saved results and the pass number. -/
theorem nextPass_seq (i : Instr) (s : State) :
    (nextPass i s).seq.pass = s.seq.pass + 1 ∧ (nextPass i s).seq.acc = (savePass i s.seq).acc ∧
      (nextPass i s).seq.half0 = (savePass i s.seq).half0 ∧ (nextPass i s).seq.half1 = (savePass i s.seq).half1 := by
  obtain ⟨-, -, -, hp⟩ := loadPass_keeps i (s.seq.pass + 1) s { savePass i s.seq with pass := s.seq.pass + 1 }
  obtain ⟨hacc, h0, h1⟩ := loadPass_keepsResults i (s.seq.pass + 1) s { savePass i s.seq with pass := s.seq.pass + 1 }
  exact ⟨hp, hacc, h0, h1⟩

section
variable {i : Instr} (hi : lastPass i = 2)
include hi

/-- The commands of three passes are the payload commands, whose first two passes expand the key table. -/
theorem threePass_cases : i = .encPayload ∨ i = .decPayload ∨ i = .build ∨ i = .decode := by
  cases i with
  | encPayload | decPayload | build | decode => simp
  | _ => simp [lastPass] at hi

theorem passesInv_threePass (s : State) :
    PassesInv i s ↔
      (1 ≤ s.seq.pass → s.seq.half0 = shiftLeft cfg (expandSeed (serialBytes s.serial) 0x20) (le8 s.dkey)) ∧
        (s.seq.pass = 2 → s.seq.half1 = shiftLeft cfg (expandSeed (serialBytes s.serial) 0x60) (le8 s.dkey)) := by
  obtain rfl | rfl | rfl | rfl := threePass_cases hi <;> exact Iff.rfl

theorem passKind_expansion {n : Fin 3} (hn : n ≠ 2) : passKind i n = some .left := by
  obtain rfl | rfl | rfl | rfl := threePass_cases hi <;> simp [passKind, hn]

theorem passTable_expansion {n : Fin 3} (hn : n ≠ 2) (s : State) (q : Seq) : passTable i n s q = le8 s.dkey := by
  obtain rfl | rfl | rfl | rfl := threePass_cases hi <;> simp [passTable, hn]

theorem loadPass_expansion (s : State) :
    loadPass i 0 s = loadScramble (expandSeed (serialBytes s.serial) 0x20) 1 ∧
      loadPass i 1 s = loadScramble (expandSeed (serialBytes s.serial) 0x60) 1 := by
  obtain rfl | rfl | rfl | rfl := threePass_cases hi <;> exact ⟨rfl, rfl⟩

theorem savePass_expansion (q : Seq) :
    savePass i q = if q.pass = 0 then { q with half0 := q.work } else { q with half1 := q.work } := by
  obtain rfl | rfl | rfl | rfl := threePass_cases hi <;> rfl

/-- A finished expansion pass of a payload command saves its half of the key table. -/
theorem passesInv_nextPass_threePass {s : State} (hr : s.seq.r = 527) (hlast : s.seq.pass ≠ 2) (h : DatapathInv i s) :
    PassesInv i (nextPass i (bitStepped i .left s)) := by
  have hk := passKind_expansion hi hlast
  obtain ⟨hp, -, hhalf0, hhalf1⟩ := nextPass_seq i (bitStepped i .left s)
  obtain ⟨-, -, -, -, -, -, -, hkeep0, -⟩ := bitStep_keeps .left (passTable i s.seq.pass s s.seq) s.seq
  have hwork {S : CState} (e : loadPass i s.seq.pass s = loadScramble S 1) :
      (bitStepped i .left s).seq.work = shiftLeft cfg S (le8 s.dkey) := by
    rw [bitStepped_work_of_leftPass hk hr h e, passTable_expansion hi hlast]
  rw [savePass_expansion hi, bitStepped_pass] at hhalf0 hhalf1
  rw [bitStepped_pass] at hp
  rw [passesInv_threePass hi, hp, hhalf0, hhalf1]
  obtain ⟨hload0, hload1⟩ := loadPass_expansion hi s
  by_cases h0 : s.seq.pass = 0
  · rw [if_pos h0, h0]
    exact ⟨fun _ => hwork (h0 ▸ hload0), fun h2 => absurd h2 (by decide)⟩
  · have h1 : s.seq.pass = 1 := by
      revert h0 hlast; generalize s.seq.pass = p; revert p; decide
    obtain ⟨-, hv, -⟩ := h
    obtain ⟨hsaved, -⟩ := (passesInv_threePass hi s).1 hv
    rw [if_neg h0, h1]
    exact ⟨fun _ => hkeep0.trans (hsaved (by rw [h1])), fun _ => hwork (h1 ▸ hload1)⟩

end

/-- The end of a pass saves what the later passes and the commit rest on. -/
theorem passesInv_nextPass {i : Instr} {s : State} {kind : PassKind} (hk : passKind i s.seq.pass = some kind)
    (hr : s.seq.r = 527) (hlast : s.seq.pass ≠ lastPass i) (h : DatapathInv i s) :
    PassesInv i (nextPass i (bitStepped i kind s)) := by
  obtain ⟨hle, -⟩ := id h
  have hfirst (h1 : lastPass i = 1) : s.seq.pass = 0 := by
    rw [h1] at hle hlast; revert hle hlast; generalize s.seq.pass = p; revert p; decide
  cases i with
  | derive =>
    cases hk
    obtain ⟨-, hacc, -⟩ := nextPass_seq .derive (bitStepped .derive .dec s)
    exact fun _ => hacc.trans (bitStepped_blk_of_decPass rfl hr h (by rw [hfirst rfl]; rfl))
  | expand =>
    cases hk
    obtain ⟨-, -, hhalf0, -⟩ := nextPass_seq .expand (bitStepped .expand .left s)
    exact fun _ => hhalf0.trans (bitStepped_work_of_leftPass rfl hr h (by rw [hfirst rfl]; rfl))
  | encPayload | decPayload | build | decode =>
    rw [passKind_expansion rfl hlast] at hk
    cases hk
    exact passesInv_nextPass_threePass rfl hr hlast h
  | _ => trivial

theorem datapathInv_nextPass {i : Instr} {s : State} {kind : PassKind} (hk : passKind i s.seq.pass = some kind)
    (hr : s.seq.r = 527) (hlast : s.seq.pass ≠ lastPass i) (h : DatapathInv i s) :
    DatapathInv i (nextPass i (bitStepped i kind s)) := by
  obtain ⟨hp, -⟩ := nextPass_seq i (bitStepped i kind s)
  refine datapathInv_of_loaded ?_ (passesInv_nextPass hk hr hlast h) (by rw [hp]; rfl)
  obtain ⟨hle, -⟩ := h
  rw [hp, bitStepped_pass]
  exact Fin.add_one_le_of_lt (lt_of_le_of_ne hle hlast)

end Sys2Proof.Machine
end

section
/-! Every step keeps the invariant of the block. -/

namespace Sys2Proof.Machine

/-! ## The invariant, phase by phase -/

/-- STATUS as acceptance left it (10_state.md R38). -/
def StatusAsAccepted (s : State) : Prop := s.doneFlag = false ∧ s.err = .none ∧ s.lastop = s.seq.op

theorem inv_idle_iff {s : State} (h : s.seq.phase = .idle) : Inv s ↔ s.port.valid = false ∧ s.faults.Nodup := by
  simp [Inv, PortInv, BusyInv, h]

theorem inv_running_iff {i : Instr} {s : State} (hb : s.seq.phase = .busy) (hi : s.running = some i) (hp : i ≠ .pulse) :
    Inv s ↔ s.port.valid = false ∧ StatusAsAccepted s ∧ (i ≠ .nop ∧ (i = .build → buttonRefused cfg s.button = false)) ∧
      DatapathInv i s ∧ s.faults.Nodup := by
  simp [Inv, PortInv, BusyInv, StatusAsAccepted, hb, hi, hp, and_assoc]

/-- A running PULSE has no pass: only the records and the port count. -/
theorem inv_pulse_iff {s : State} (hb : s.seq.phase = .busy) (hi : s.running = some .pulse) :
    Inv s ↔ (s.port = offered s.seq.recs s.seq.k ∧ s.seq.k < s.seq.recs.length ∧ s.seq.recs = pulseSeq cfg s.payload) ∧
      StatusAsAccepted s ∧ s.seq.pass = 0 ∧ s.faults.Nodup := by
  simp [Inv, PortInv, BusyInv, StatusAsAccepted, hb, hi, and_assoc, DatapathInv, PassesInv, passKind, lastPass]

/-- The invariant does not read what the host's agent and the sink hold, WERR, DONE_IE or the draw count. -/
theorem inv_outside_iff (s : State) (werr doneIe : Bool) (out : List Record) (host : List HostAction) (reply : Reply)
    (turns : List Turn) (draws : Nat) :
    Inv { s with werr := werr, doneIe := doneIe, out := out, host := host, reply := reply, turns := turns, draws := draws } ↔
      Inv s := Iff.rfl

theorem Inv.withFaults {s : State} {fs : List BusFault} (h : Inv s) (hf : fs.Nodup) (reply : Reply) :
    Inv { s with faults := fs, reply := reply } := by
  obtain ⟨hport, hbusy, -⟩ := h
  exact ⟨hport, hbusy, hf⟩

theorem resetBlock_inv {s : State} (h : s.faults.Nodup) : Inv (resetBlock s) := (inv_idle_iff rfl).2 ⟨rfl, h⟩

/-! ## Commands -/

/-- A completed command leaves an Idle block; only a record on offer or a repeated fault could break its invariant. -/
theorem CompletesInto.inv {s t : State} (h : CompletesInto s t) (hport : s.port.valid = false) (hf : s.faults.Nodup) :
    Inv t := by
  rw [h]
  exact (inv_idle_iff rfl).2 ⟨hport, hf⟩

theorem accept_latched (i : Instr) (s : State) :
    (accept i s).seq.phase = .busy ∧ (accept i s).seq.op = opcodeOf i ∧ (accept i s).seq.tsel = tselOf i ∧
      (accept i s).seq.pass = 0 := loadPass_keeps ..

theorem accept_running (i : Instr) (s : State) : (accept i s).running = some i := by
  obtain ⟨-, hop, htsel, -⟩ := accept_latched i s
  apply running_of_word
  rw [hop, htsel]
  exact decodeWord_encode i

theorem accept_statusAsAccepted (i : Instr) (s : State) : StatusAsAccepted (accept i s) := by
  obtain ⟨-, hop, -⟩ := accept_latched i s
  exact ⟨rfl, rfl, hop.symm⟩

theorem accept_datapathInv (i : Instr) (s : State) : DatapathInv i (accept i s) := by
  obtain ⟨-, -, -, hpass⟩ := accept_latched i s
  refine datapathInv_of_loaded (q := { s.seq with phase := .busy, op := opcodeOf i, tsel := tselOf i, pass := 0 })
    (by rw [hpass]; exact Fin.zero_le _) (passesInv_of_firstPass hpass i) ?_
  rw [hpass]
  rfl

theorem accept_inv {i : Instr} {s : State} (hn : i ≠ .nop) (hp : i ≠ .pulse)
    (hbutton : i = .build → buttonRefused cfg s.button = false) (hport : s.port.valid = false) (hf : s.faults.Nodup) :
    Inv (accept i s) := by
  obtain ⟨hb, -⟩ := accept_latched i s
  exact (inv_running_iff hb (accept_running i s) hp).2
    ⟨hport, accept_statusAsAccepted i s, ⟨hn, hbutton⟩, accept_datapathInv i s, hf⟩

theorem pulseSeq_length_pos (c : Cfg) (P : PayloadBytes) : 0 < (pulseSeq c P).length := by simp [pulseSeq]

/-- A PULSE just accepted offers the first record of the payload's sequence. -/
theorem acceptPulse_inv {s : State} (hf : s.faults.Nodup) :
    Inv { accept .pulse s with port := offered (accept .pulse s).seq.recs 0 } := by
  obtain ⟨hb, -, -, hpass⟩ := accept_latched .pulse s
  refine (inv_pulse_iff ?_ ?_).2
    ⟨⟨rfl, pulseSeq_length_pos cfg s.payload, rfl⟩, accept_statusAsAccepted .pulse s, hpass, hf⟩
  · exact hb
  · exact accept_running .pulse s

theorem exec_idle_inv {i : Instr} {s t : State} (hi : s.seq.phase = .idle) (h : Inv s) (ht : exec i s = .next t) : Inv t := by
  obtain ⟨hport, hf⟩ := (inv_idle_iff hi).1 h
  obtain ⟨code, rfl⟩ | ⟨hn, hp, hbutton, rfl⟩ | ⟨-, rfl⟩ := exec_idle_cases hi ht
  · exact (inv_idle_iff rfl).2 ⟨hport, hf⟩
  · exact accept_inv hn hp hbutton hport hf
  · exact acceptPulse_inv hf

theorem exec_busy_inv {i : Instr} {s t : State} (hb : s.seq.phase = .busy) (hi : s.running = some i) (hp : i ≠ .pulse)
    (h : Inv s) (ht : exec i s = .next t) : Inv t := by
  obtain ⟨hport, -, -, -, hf⟩ := (inv_running_iff hb hi hp).1 h
  obtain ⟨u, hu, hc⟩ := exec_busy hb hp
  cases hu.symm.trans ht
  exact hc.inv hport hf

/-- A transfer offers the next record, or completes with no record on offer. -/
theorem transfer_inv {s : State} (hb : s.seq.phase = .busy) (hi : s.running = some .pulse) (h : Inv s) :
    Inv (transfer s) := by
  obtain ⟨⟨-, hk, hrecs⟩, hstatus, hpass, hf⟩ := (inv_pulse_iff hb hi).1 h
  obtain ⟨-, e⟩ | ⟨r, -, hne, e⟩ | ⟨r, -, -, e⟩ := transfer_cases s <;> rw [e]
  · exact h
  · exact (inv_pulse_iff (s := { s with out := s.out ++ [r], seq := { s.seq with k := s.seq.k + 1 }, port := _ }) hb hi).2
      ⟨⟨rfl, lt_of_le_of_ne hk hne, hrecs⟩, hstatus, hpass, hf⟩
  · exact (inv_idle_iff rfl).2 ⟨rfl, hf⟩

/-! ## Clock cycles -/

/-- A running command may move its sequencer to any place its datapath's counters allow. -/
theorem Inv.withSeq {i : Instr} {s : State} {q : Seq} (h : Inv s) (hb : s.seq.phase = .busy) (hi : s.running = some i)
    (hp : i ≠ .pulse) (hphase : q.phase = s.seq.phase) (hop : q.op = s.seq.op) (htsel : q.tsel = s.seq.tsel)
    (hd : DatapathInv i { s with seq := q }) : Inv { s with seq := q } := by
  obtain ⟨hport, ⟨hdone, herr, hlast⟩, hword, -, hf⟩ := (inv_running_iff hb hi hp).1 h
  have hi' : State.running { s with seq := q } = some i := by
    rw [← hi]; simp only [State.running, hop, htsel]
  exact (inv_running_iff (hphase.trans hb) hi' hp).2 ⟨hport, ⟨hdone, herr, hlast.trans hop.symm⟩, hword, hd, hf⟩

theorem savePass_keeps (i : Instr) (q : Seq) :
    (savePass i q).phase = q.phase ∧ (savePass i q).op = q.op ∧ (savePass i q).tsel = q.tsel := by
  cases i with
  | encPayload | decPayload | build | decode => by_cases h : q.pass = 0 <;> simp [savePass, h]
  | _ => exact ⟨rfl, rfl, rfl⟩

theorem cycle_inv {i : Instr} {s : State} (hb : s.seq.phase = .busy) (hi : s.running = some i) (h : Inv s) :
    Inv (cycle i s) := by
  by_cases hp : i = .pulse
  · subst hp; exact h
  obtain ⟨hport, -, -, hd, hf⟩ := (inv_running_iff hb hi hp).1 h
  have hmove := cycle_move i s
  generalize cycle i s = t at hmove
  cases hmove with
  | still => exact h
  | inPass hk hr =>
    obtain ⟨hphase, hop, htsel, -⟩ := bitStep_keeps _ (passTable i s.seq.pass s s.seq) s.seq
    exact h.withSeq hb hi hp hphase hop htsel (datapathInv_bitStepped hk hr hd)
  | @endOfPass kind hk hr hlast =>
    obtain ⟨hphase, hop, htsel, -⟩ := bitStep_keeps kind (passTable i s.seq.pass s s.seq) s.seq
    obtain ⟨hphase', hop', htsel'⟩ := savePass_keeps i (bitStepped i kind s).seq
    obtain ⟨hphase'', hop'', htsel'', -⟩ := loadPass_keeps i ((bitStepped i kind s).seq.pass + 1) (bitStepped i kind s)
      { savePass i (bitStepped i kind s).seq with pass := (bitStepped i kind s).seq.pass + 1 }
    exact h.withSeq hb hi hp (hphase''.trans (hphase'.trans hphase)) (hop''.trans (hop'.trans hop))
      (htsel''.trans (htsel'.trans htsel)) (datapathInv_nextPass hk hr hlast hd)
  | endOfCommand => exact (commitDatapath_completesInto hp _).inv hport hf

/-! ## The host's access -/

theorem writeStatus_inv {s : State} (v : Word) (h : Inv s) : Inv (s.writeStatus v) := by
  obtain ⟨hport, hbusy, hf⟩ := h
  refine ⟨hport, fun hb => ?_, hf⟩
  obtain ⟨hdone, hrest⟩ := hbusy hb
  exact ⟨by simp [hdone], hrest⟩

theorem writeCtrl_inv {s : State} (v : Word) (h : Inv s) : Inv (writeCtrl v s) := by
  unfold writeCtrl
  split
  · exact resetBlock_inv h.2.2
  · exact h

/-- Outside the guarded registers nothing is stored. -/
theorem writeData_of_not_guarded {r : Reg} (h : r.guarded = false) (v : Word) (s : State) : writeData r v s = s := by
  cases r <;> simp [Reg.guarded, writeData] at h ⊢

/-- A data write takes effect in an Idle block alone, where no datapath depends on it. -/
theorem writeData_inv {r : Reg} {s : State} (v : Word) (hr : s.busy = false ∨ r.guarded = false) (h : Inv s) :
    Inv (writeData r v s) := by
  obtain hidle | hr := hr
  · have hidle := busy_eq_false.1 hidle
    obtain ⟨hseq, hport, -, -, -, -, -, -, -, -, -, hfaults⟩ := writeData_keeps r v s
    rw [inv_idle_iff (by rw [hseq]; exact hidle), hport, hfaults]
    exact (inv_idle_iff hidle).1 h
  · rw [writeData_of_not_guarded hr]; exact h

theorem writeReg_inv {s : State} (r : Reg) (v : Word) (h : Inv s) : Inv (writeReg r v s) := by
  obtain ⟨-, e⟩ | ⟨-, e⟩ | ⟨-, -, e⟩ | ⟨hr, e⟩ := writeReg_cases r v s <;> rw [e]
  · exact writeStatus_inv v h
  · exact writeCtrl_inv v h
  · exact h
  · exact writeData_inv v hr h

theorem writeCmd_inv {w : Word} {s t : State} (h : Inv s) (ht : writeCmd w s = .next t) : Inv t := by
  obtain ⟨-, rfl⟩ | ⟨hi, rfl⟩ | ⟨hi, i, he⟩ := writeCmd_cases ht
  · exact h
  · exact (inv_idle_iff rfl).2 ((inv_idle_iff hi).1 h)
  · exact exec_idle_inv hi h he

theorem access_inv {a : BusAccess} {s t : State} (h : Inv s) (ht : access a s = .next t) : Inv t := by
  cases access_move ht with
  | refused => rw [refuseAccess_eq]; exact h.withFaults (refuseAccess_nodup h.2.2) _
  | read => obtain ⟨v, e⟩ | e := busRead_cases a.addr s <;> rw [e] <;> exact h
  | reserved => exact h
  | command _ _ _ hc => exact writeCmd_inv (s := { s with reply := .written }) h hc
  | register => exact writeReg_inv (s := { s with reply := .written }) _ _ h

/-! ## Turns -/

theorem takeTurn_inv {turn : Turn} {s t : State} (h : Inv s) (ht : takeTurn turn s = .next t) : Inv t := by
  cases turn with
  | host =>
    obtain ⟨a, rest, -, ha⟩ | ⟨hs, rep, n, rfl⟩ := hostTurn_cases ht
    · exact access_inv (s := { s with host := rest }) h ha
    · exact h
  | complete =>
    obtain ⟨i, hb, hi, hp, e⟩ | ⟨-, e⟩ := completeTurn_cases s
    · exact exec_busy_inv hb hi hp h (e.symm.trans ht)
    · cases e.symm.trans ht; exact h
  | tick =>
    cases ht
    obtain ⟨i, hb, hi, e⟩ | e := tickTurn_cases s <;> rw [e]
    · exact cycle_inv hb hi h
    · exact h
  | transfer =>
    obtain ⟨hb, hi, e⟩ | e := transferTurn_cases s
    · cases e.symm.trans ht; exact transfer_inv hb hi h
    · cases e.symm.trans ht; exact h
  | hardReset => cases ht; exact resetBlock_inv h.2.2
  | hostInReset =>
    cases ht
    obtain ⟨hs, rep, e⟩ := hostInReset_cases s
    rw [e]
    exact (inv_outside_iff (resetBlock s) ..).2 (resetBlock_inv h.2.2)

theorem step_inv {s t : State} (h : Inv s) (ht : step s = .next t) : Inv t := by
  rw [step_eq_takeTurn] at ht
  exact takeTurn_inv (s := { s with turns := s.turns.tail }) h ht

end Sys2Proof.Machine

/-- Settles O57: a step is a turn, and each turn keeps the invariant; for a clock cycle that is the simulation of the passes. -/
theorem stepKeepsTheInvariant : Obligations.StepKeepsTheInvariant := fun _ _ h ht => Sys2Proof.Machine.step_inv h ht
end

section
/-! What the sequencer's moves leave to the host, and how WERR, the fault set and the output list change. -/

namespace Sys2Proof.Machine

/-! ## The sequencer's frame -/

/-- The fields that only the host's agent or a reset changes. -/
def KeepsHostFields (s t : State) : Prop :=
  t.keyLo = s.keyLo ∧ t.keyHi = s.keyHi ∧ t.serial = s.serial ∧ t.counter = s.counter ∧ t.button = s.button ∧
    t.doneIe = s.doneIe ∧ t.werr = s.werr ∧ t.draws = s.draws

/-- No recorded fault and no transferred record is taken back, and at most one record is added. -/
def HistoryGrows (s t : State) : Prop :=
  (∀ f ∈ s.faults, f ∈ t.faults) ∧ ∃ l : List Record, l.length ≤ 1 ∧ t.out = s.out ++ l

theorem historyGrows_of_eq {s t : State} (hf : t.faults = s.faults) (ho : t.out = s.out) : HistoryGrows s t :=
  ⟨fun _ h => hf ▸ h, [], Nat.zero_le _, by rw [ho, List.append_nil]⟩

/-- What every move of the sequencer keeps. -/
def SequencerFrame (s t : State) : Prop := KeepsHostFields s t ∧ HistoryGrows s t

theorem SequencerFrame.refl (s : State) : SequencerFrame s s :=
  ⟨⟨rfl, rfl, rfl, rfl, rfl, rfl, rfl, rfl⟩, historyGrows_of_eq rfl rfl⟩

/-- The frame does not read the sequencer. -/
theorem sequencerFrame_setSeq_iff (s t : State) (q : Seq) : SequencerFrame { s with seq := q } t ↔ SequencerFrame s t :=
  Iff.rfl

theorem sequencerFrame_setSeq (s : State) (q : Seq) : SequencerFrame s { s with seq := q } := SequencerFrame.refl s

theorem CompletesInto.sequencerFrame {s t : State} (h : CompletesInto s t) : SequencerFrame s t := by
  rw [h]
  exact SequencerFrame.refl s

theorem transfer_sequencerFrame (s : State) : SequencerFrame s (transfer s) := by
  obtain ⟨-, e⟩ | ⟨r, -, -, e⟩ | ⟨r, -, -, e⟩ := transfer_cases s <;> rw [e]
  · exact SequencerFrame.refl s
  · exact ⟨(SequencerFrame.refl s).1, fun _ h => h, [r], le_rfl, rfl⟩
  · exact ⟨(SequencerFrame.refl s).1, fun _ h => h, [r], le_rfl, rfl⟩

theorem cycle_sequencerFrame (i : Instr) (s : State) : SequencerFrame s (cycle i s) := by
  have hmove := cycle_move i s
  generalize cycle i s = t at hmove
  cases hmove with
  | still => exact SequencerFrame.refl s
  | inPass => exact sequencerFrame_setSeq s _
  | endOfPass => exact sequencerFrame_setSeq s _
  | @endOfCommand kind hk =>
    have hp : i ≠ .pulse := by rintro rfl; cases hk
    exact (sequencerFrame_setSeq_iff s _ _).1 (commitDatapath_completesInto hp (bitStepped i kind s)).sequencerFrame

theorem completeTurn_sequencerFrame {s t : State} (h : completeTurn s = .next t) : SequencerFrame s t := by
  obtain ⟨i, hb, -, hp, e⟩ | ⟨-, e⟩ := completeTurn_cases s
  · obtain ⟨u, hu, hc⟩ := exec_busy hb hp
    cases (e.trans hu).symm.trans h
    exact hc.sequencerFrame
  · cases e.symm.trans h
    exact SequencerFrame.refl s

theorem transferTurn_sequencerFrame {s t : State} (h : transferTurn s = .next t) : SequencerFrame s t := by
  obtain ⟨-, -, e⟩ | e := transferTurn_cases s <;> cases e.symm.trans h
  · exact transfer_sequencerFrame s
  · exact SequencerFrame.refl s

theorem tickTurn_sequencerFrame (s : State) : SequencerFrame s (tickTurn s) := by
  obtain ⟨i, -, -, e⟩ | e := tickTurn_cases s <;> rw [e]
  · exact cycle_sequencerFrame i s
  · exact SequencerFrame.refl s

/-- Complete, a clock cycle and a transfer are the sequencer's turns. -/
theorem takeTurn_sequencerFrame {turn : Turn} {s t : State} (hturn : turn ∈ [Turn.complete, .tick, .transfer])
    (h : takeTurn turn s = .next t) : SequencerFrame s t := by
  cases turn with
  | complete => exact completeTurn_sequencerFrame h
  | tick => cases h; exact tickTurn_sequencerFrame s
  | transfer => exact transferTurn_sequencerFrame h
  | host | hardReset | hostInReset => simp at hturn

/-! ## The host's moves -/

theorem exec_idle_keeps {i : Instr} {s t : State} (hi : s.seq.phase = .idle) (h : exec i s = .next t) :
    t.werr = s.werr ∧ t.faults = s.faults ∧ t.out = s.out := by
  obtain ⟨code, rfl⟩ | ⟨-, -, -, rfl⟩ | ⟨-, rfl⟩ := exec_idle_cases hi h <;> exact ⟨rfl, rfl, rfl⟩

theorem mem_refuseAccess_faults {f : BusFault} {s : State} (h : f ∈ s.faults) (we : Bool) (fs : List BusFault) :
    f ∈ (refuseAccess we fs s).faults := by
  show f ∈ (fs.foldl (fun s f => recordFault f s) s).faults
  induction fs generalizing s with
  | nil => exact h
  | cons g fs ih =>
    refine ih ?_
    rw [recordFault_faults]
    split
    · exact h
    · exact List.mem_append_left _ h

theorem writeCtrl_historyGrows (v : Word) (s : State) : HistoryGrows s (writeCtrl v s) := by
  unfold writeCtrl
  split <;> exact historyGrows_of_eq rfl rfl

theorem writeReg_historyGrows (r : Reg) (v : Word) (s : State) : HistoryGrows s (writeReg r v s) := by
  obtain ⟨-, e⟩ | ⟨-, e⟩ | ⟨-, -, e⟩ | ⟨-, e⟩ := writeReg_cases r v s <;> rw [e]
  · exact historyGrows_of_eq rfl rfl
  · exact writeCtrl_historyGrows v s
  · exact historyGrows_of_eq rfl rfl
  · obtain ⟨-, -, -, -, -, -, -, -, -, -, hout, hfaults⟩ := writeData_keeps r v s
    exact historyGrows_of_eq hfaults hout

theorem writeCmd_historyGrows {w : Word} {s t : State} (h : writeCmd w s = .next t) : HistoryGrows s t := by
  obtain ⟨-, rfl⟩ | ⟨-, rfl⟩ | ⟨hi, i, he⟩ := writeCmd_cases h
  · exact historyGrows_of_eq rfl rfl
  · exact historyGrows_of_eq rfl rfl
  · obtain ⟨-, hfaults, hout⟩ := exec_idle_keeps hi he
    exact historyGrows_of_eq hfaults hout

theorem access_historyGrows {a : BusAccess} {s t : State} (h : access a s = .next t) : HistoryGrows s t := by
  cases access_move h with
  | refused =>
    refine ⟨fun f hf => mem_refuseAccess_faults hf .., [], Nat.zero_le _, ?_⟩
    rw [refuseAccess_eq, List.append_nil]
  | read => obtain ⟨v, e⟩ | e := busRead_cases a.addr s <;> rw [e] <;> exact historyGrows_of_eq rfl rfl
  | reserved => exact historyGrows_of_eq rfl rfl
  | command _ _ _ hc => exact writeCmd_historyGrows (s := { s with reply := .written }) hc
  | register => exact writeReg_historyGrows _ _ { s with reply := .written }

/-- A write of a register raises WERR only where it is dropped (10_state.md R38). -/
theorem writeReg_werr {r : Reg} {v : Word} {s : State} (h0 : s.werr = false) (h1 : (writeReg r v s).werr = true) :
    s.seq.phase = .busy ∧ r.guarded = true := by
  obtain ⟨-, e⟩ | ⟨-, e⟩ | ⟨hb, hr, -⟩ | ⟨-, e⟩ := writeReg_cases r v s
  · rw [e, writeStatus_werr, h0] at h1
    cases h1
  · rw [e, writeCtrl] at h1
    split at h1
    · cases h1
    · cases h0.symm.trans h1
  · exact ⟨busy_eq_true.1 hb, hr⟩
  · obtain ⟨-, -, -, -, -, hwerr, -⟩ := writeData_keeps r v s
    rw [e, hwerr, h0] at h1
    cases h1

theorem writeCmd_werr {w : Word} {s t : State} (h : writeCmd w s = .next t) (h0 : s.werr = false) (h1 : t.werr = true) :
    s.seq.phase = .busy := by
  obtain ⟨hb, -⟩ | ⟨-, rfl⟩ | ⟨hi, i, he⟩ := writeCmd_cases h
  · exact hb
  · cases h0.symm.trans h1
  · obtain ⟨hwerr, -⟩ := exec_idle_keeps hi he
    rw [hwerr, h0] at h1
    cases h1

/-- WERR rises only at a write that a Busy block drops: aligned, full-word and to a guarded register. -/
theorem access_werr {a : BusAccess} {s t : State} (h : access a s = .next t) (h0 : s.werr = false) (h1 : t.werr = true) :
    s.seq.phase = .busy ∧ a.we = true ∧ a.faults = [] ∧ ∃ r, a.addr = Reg.offset r ∧ r.guarded = true := by
  cases access_move h with
  | refused => rw [refuseAccess_eq] at h1; cases h0.symm.trans h1
  | read => obtain ⟨v, e⟩ | e := busRead_cases a.addr s <;> rw [e] at h1 <;> cases h0.symm.trans h1
  | reserved => cases h0.symm.trans h1
  | command hf hw ha hc => exact ⟨writeCmd_werr (s := { s with reply := .written }) hc h0 h1, hw, hf, .cmd, ha, rfl⟩
  | register hf hw ha =>
    obtain ⟨hb, hr⟩ := writeReg_werr (s := { s with reply := .written }) h0 h1
    exact ⟨hb, hw, hf, _, ha, hr⟩

/-! ## Turns -/

theorem takeTurn_historyGrows {turn : Turn} {s t : State} (h : takeTurn turn s = .next t) : HistoryGrows s t := by
  cases turn with
  | host =>
    obtain ⟨a, rest, -, ha⟩ | ⟨hs, rep, n, rfl⟩ := hostTurn_cases h
    · exact access_historyGrows (s := { s with host := rest }) ha
    · exact historyGrows_of_eq rfl rfl
  | complete | tick | transfer => exact (takeTurn_sequencerFrame (by simp) h).2
  | hardReset => cases h; exact historyGrows_of_eq rfl rfl
  | hostInReset =>
    cases h
    obtain ⟨hs, rep, e⟩ := hostInReset_cases s
    rw [e]
    exact historyGrows_of_eq rfl rfl

/-- Of all turns only the host's raises WERR. -/
theorem takeTurn_werr {turn : Turn} {s t : State} (h : takeTurn turn s = .next t) (h0 : s.werr = false)
    (h1 : t.werr = true) :
    turn = .host ∧ s.seq.phase = .busy ∧ ∃ a hs r, s.host = .bus a :: hs ∧ a.we = true ∧ a.faults = [] ∧
      a.addr = Reg.offset r ∧ r.guarded = true := by
  cases turn with
  | host =>
    obtain ⟨a, rest, hhost, ha⟩ | ⟨hs, rep, n, rfl⟩ := hostTurn_cases h
    · obtain ⟨hb, hw, hf, r, hr, hg⟩ := access_werr (s := { s with host := rest }) ha h0 h1
      exact ⟨rfl, hb, a, rest, r, hhost, hw, hf, hr, hg⟩
    · cases h0.symm.trans h1
  | complete | tick | transfer =>
    obtain ⟨⟨-, -, -, -, -, -, hwerr, -⟩, -⟩ := takeTurn_sequencerFrame (by simp) h
    rw [hwerr, h0] at h1
    cases h1
  | hardReset => cases h; cases h1
  | hostInReset =>
    cases h
    obtain ⟨hs, rep, e⟩ := hostInReset_cases s
    rw [e] at h1
    cases h1

end Sys2Proof.Machine

open Sys2Proof Sys2Proof.Machine

/-- Settles O53: the step is a sequencer's turn, and each of these keeps the host's fields. -/
theorem onlyTheHostWritesKeySerialCounter : Obligations.OnlyTheHostWritesKeySerialCounter := by
  intro s t hturn h
  rw [step_eq_takeTurn] at h
  have hturn' : s.turns.head?.getD .complete ∈ [Turn.complete, .tick, .transfer] := by
    revert hturn
    cases s.turns.head? <;> simp
  obtain ⟨hkeeps, -⟩ := takeTurn_sequencerFrame hturn' h
  exact hkeeps

/-- Settles O55: WERR by the turn that raises it, the histories by the growth every turn has. -/
theorem werrFaultsAndOutputHistory : Obligations.WerrFaultsAndOutputHistory := by
  intro s t h
  rw [step_eq_takeTurn] at h
  refine ⟨fun h0 h1 => ?_, takeTurn_historyGrows (s := { s with turns := s.turns.tail }) h⟩
  obtain ⟨hturn, hb, a, hs, r, hrest⟩ := takeTurn_werr h h0 h1
  have hturns : s.turns = .host :: s.turns.tail := by
    revert hturn
    cases s.turns <;> simp
  exact ⟨hb, s.turns.tail, a, hs, r, hturns, hrest⟩
end

section
/-! The bus: the command a step presents, STATUS, CTRL and the registers of the window. -/

namespace Sys2Proof.Machine

/-! ## A step at the host's access -/

theorem step_hostBus {s : State} {ts : List Turn} {a : BusAccess} {hs : List HostAction} (ht : s.turns = .host :: ts)
    (hh : s.host = .bus a :: hs) : step s = access a { s with turns := ts, host := hs } := by
  simp only [step, ht, takeTurn, hostTurn, hh]

theorem writeCmd_idle_legal {s : State} {w : Word} {i : Instr} (hi : s.seq.phase = .idle) (hw : decodeWord w = .ok i) :
    writeCmd w s = exec i s := by
  simp only [writeCmd, hi, presentWord, hw]

/-- A step at a write of a legal word to CMD of an Idle block is its command's acceptance (10_state.md R24). -/
theorem step_cmdWrite {s : State} {ts : List Turn} {hs : List HostAction} {w : Word} {i : Instr}
    (ht : s.turns = .host :: ts) (hh : s.host = cmdWrite w :: hs) (hi : s.seq.phase = .idle) (hw : decodeWord w = .ok i) :
    step s = exec i { s with turns := ts, host := hs, reply := .written } := by
  rw [step_hostBus ht hh, access_writeCmd]
  exact writeCmd_idle_legal hi hw

theorem decodeWord_of_decodeTableWord {nbits w : Nat} {i : Instr} (h : decodeTableWord nbits w = some i) :
    decodeWord (BitVec.ofNat 32 (w % 2 ^ nbits)) = .ok i := by
  unfold decodeTableWord at h
  split at h
  · cases h; assumption
  · cases h

/-! ## STATUS and CTRL -/

theorem busy_eq_beq (s : State) : s.busy = (s.seq.phase == .busy) := by
  unfold State.busy; cases s.seq.phase <;> rfl

theorem statusWord_bits (s : State) :
    s.statusWord.getLsbD 0 = s.busy ∧ s.statusWord.getLsbD 1 = s.doneFlag ∧ s.statusWord.getLsbD 5 = s.werr := by
  simp only [State.statusWord, BitVec.getLsbD_append]
  simp

/-- Each field stands above the ones below it: what lies lower is dropped from the word, field by field. -/
theorem statusWord_fields (s : State) :
    s.statusWord.extractLsb' 2 3 = s.err.code ∧ s.statusWord.extractLsb' 6 2 = 0 ∧
      s.statusWord.extractLsb' 8 4 = s.lastop ∧ s.statusWord.extractLsb' 12 20 = 0 := by
  unfold State.statusWord
  refine ⟨?_, ?_, ?_, ?_⟩
  · iterate 2 rw [BitVec.extractLsb'_append_eq_of_le (by omega)]
    exact BitVec.extractLsb'_append_eq_right
  · iterate 4 rw [BitVec.extractLsb'_append_eq_of_le (by omega)]
    exact BitVec.extractLsb'_append_eq_right
  · iterate 5 rw [BitVec.extractLsb'_append_eq_of_le (by omega)]
    exact BitVec.extractLsb'_append_eq_right
  · iterate 6 rw [BitVec.extractLsb'_append_eq_of_le (by omega)]
    exact BitVec.extractLsb'_eq_self

theorem writeStatus_eq (v : Word) (s : State) :
    s.writeStatus v =
      { s with
        doneFlag := if v.getLsbD 1 then false else s.doneFlag, werr := if v.getLsbD 5 then false else s.werr } := by
  have clear (b c : Bool) : (b && !c) = if c then false else b := by cases c <;> simp
  rw [State.writeStatus, clear, clear]

theorem access_writeStatus (v : Word) (s : State) :
    access ⟨true, Reg.status.offset, 0b1111, v⟩ s = .next (State.writeStatus v { s with reply := .written }) :=
  access_writeReg (by simp) v s

theorem ctrlWord_bits (s : State) (b : Nat) : s.ctrlWord.getLsbD b = (decide (b = 0) && s.doneIe) := by
  simp only [State.ctrlWord, BitVec.getLsbD_append]
  cases b <;> simp

theorem access_writeCtrl (v : Word) (s : State) :
    access ⟨true, Reg.ctrl.offset, 0b1111, v⟩ s = .next (writeCtrl v { s with reply := .written }) :=
  access_writeReg (by simp) v s

theorem writeCtrl_keeps {v : Word} (h : v.getLsbD 1 = false) (s : State) :
    writeCtrl v s = { s with doneIe := v.getLsbD 0 } :=
  if_neg (Bool.eq_false_iff.1 h)

theorem writeCtrl_softReset {v : Word} (h : v.getLsbD 1 = true) (s : State) : writeCtrl v s = resetBlock s :=
  if_pos h

theorem resetBlock_atReset (s : State) : AtReset (resetBlock s) := ⟨readReg_resetBlock s, rfl, rfl, rfl, rfl⟩

/-! ## Words and their low bits -/

theorem zero_append_eq_setWidth {m n : Nat} (x : BitVec n) : (0 : BitVec m) ++ x = x.setWidth (m + n) := by
  have hx : x.toNat < 2 ^ (m + n) := x.isLt.trans_le (Nat.pow_le_pow_right (by omega) (by omega))
  apply BitVec.eq_of_toNat_eq
  rw [BitVec.toNat_append, BitVec.toNat_setWidth]
  simp [Nat.mod_eq_of_lt hx]

/-- Keeping the low bits of a word is masking it. -/
theorem setWidth_setWidth_eq_and {n : Nat} (hn : n ≤ 32) (v : Word) :
    (v.setWidth n).setWidth 32 = v &&& BitVec.ofNat 32 (2 ^ n - 1) := by
  have hmask : 2 ^ n - 1 < 2 ^ 32 := Nat.sub_one_lt_of_le (Nat.two_pow_pos n) (Nat.pow_le_pow_right (by omega) hn)
  have hlow : v.toNat % 2 ^ n < 2 ^ 32 := (Nat.mod_le ..).trans_lt v.isLt
  apply BitVec.eq_of_toNat_eq
  rw [BitVec.toNat_and, BitVec.toNat_ofNat, BitVec.toNat_setWidth, BitVec.toNat_setWidth, Nat.mod_eq_of_lt hmask,
    Nat.mod_eq_of_lt hlow, Nat.and_two_pow_sub_one_eq_mod]

/-- A counter and a button taken from a word are its low 24 bits. -/
theorem zero_append_button_counter (v : Word) :
    (0 : Byte) ++ v.extractLsb' 16 8 ++ v.extractLsb' 0 16 = (v.setWidth 24).setWidth 32 := by
  have h : v.extractLsb' 16 8 ++ v.extractLsb' 0 16 = v.extractLsb' 0 24 :=
    BitVec.extractLsb'_append_extractLsb'_eq_extractLsb' rfl
  rw [BitVec.append_assoc, h, zero_append_eq_setWidth, BitVec.setWidth_eq_extractLsb' (w := 24) (by omega)]
  rfl

theorem append_eq_shiftLeft_or (hi lo : Word) :
    (hi ++ lo : DWord) = (hi.setWidth 64 <<< 32) ||| lo.setWidth 64 :=
  (BitVec.setWidth_eq _).symm.trans BitVec.setWidth_append_eq_shiftLeft_setWidth_or

/-! ## The registers of the window -/

/-- The named registers, in the order of their offsets (10_state.md R23). -/
def allRegs : List Reg :=
  [.cmd, .status, .ctrl, .block, .keyLo, .keyHi, .dkeyLo, .dkeyHi, .serial, .cntbtn, .state, .decres, .payload0, .payload1,
    .payload2, .kt0, .kt1, .kt2, .kt3]

/-- The registers a host write of an Idle block stores into. -/
def dataRegs : List Reg :=
  [.block, .keyLo, .keyHi, .dkeyLo, .dkeyHi, .serial, .cntbtn, .state, .payload0, .payload1, .payload2]

/-- The implemented bits of a data register (10_state.md R30, R31, R34). -/
def implementedBits : Reg → Word
  | .serial => 0x0FFFFFFF
  | .cntbtn => 0x00FFFFFF
  | .payload2 => 0x000000FF
  | _ => 0xFFFFFFFF

theorem ne_control_of_mem_dataRegs {r : Reg} (h : r ∈ dataRegs) : r ≠ .cmd ∧ r ≠ .status ∧ r ≠ .ctrl := by
  refine ⟨?_, ?_, ?_⟩ <;> rintro rfl <;> revert h <;> decide

theorem writeReg_idle {r : Reg} {s : State} (hr : r ∈ dataRegs) (hi : s.seq.phase = .idle) (v : Word) :
    writeReg r v s = writeData r v s := by
  obtain ⟨-, hstatus, hctrl⟩ := ne_control_of_mem_dataRegs hr
  obtain ⟨h, -⟩ | ⟨h, -⟩ | ⟨hb, -⟩ | ⟨-, e⟩ := writeReg_cases r v s
  · exact absurd h hstatus
  · exact absurd h hctrl
  · rw [busy_eq_false.2 hi] at hb
    cases hb
  · exact e

theorem writeData_reply (r : Reg) (v : Word) (s : State) (rep : Reply) :
    writeData r v { s with reply := rep } = { writeData r v s with reply := rep } := by
  cases r <;> rfl

theorem access_writeData {r : Reg} {s : State} (hr : r ∈ dataRegs) (hi : s.seq.phase = .idle) (v : Word) :
    access ⟨true, r.offset, 0b1111, v⟩ s = .next { writeData r v s with reply := .written } := by
  obtain ⟨hcmd, -⟩ := ne_control_of_mem_dataRegs hr
  have hwrite := writeReg_idle (s := { s with reply := .written }) hr hi v
  rw [access_writeReg hcmd, hwrite, writeData_reply]

theorem readReg_reply (s : State) (rep : Reply) (r : Reg) : State.readReg { s with reply := rep } r = s.readReg r := by
  cases r <;> rfl

theorem writeData_outside (r : Reg) (v : Word) (s : State) :
    (writeData r v s).host = s.host ∧ (writeData r v s).turns = s.turns := by
  cases r <;> exact ⟨rfl, rfl⟩

/-- A data register keeps the implemented bits of what is written. -/
theorem readReg_writeData_same {r : Reg} (hr : r ∈ dataRegs) (v : Word) (s : State) :
    (writeData r v s).readReg r = v &&& implementedBits r := by
  have hall : v = v &&& 0xFFFFFFFF := (BitVec.and_allOnes (x := v)).symm
  cases r with
  | block | keyLo | keyHi | dkeyLo | dkeyHi | state | payload0 | payload1 => exact hall
  | serial => exact setWidth_setWidth_eq_and (n := 28) (by omega) v
  | cntbtn => exact (zero_append_button_counter v).trans (setWidth_setWidth_eq_and (n := 24) (by omega) v)
  | payload2 => exact setWidth_setWidth_eq_and (n := 8) (by omega) v
  | _ => simp [dataRegs] at hr

/-- A write of a data register changes no other register. -/
theorem readReg_writeData_other {r r' : Reg} (h : r' ≠ r) (v : Word) (s : State) :
    (writeData r v s).readReg r' = s.readReg r' := by
  obtain ⟨hseq, -, hkt, hdone, herr, hwerr, hlastop, hie, hcounter, hbutton, -⟩ := writeData_keeps r v s
  cases r' with
  | cmd => rfl
  | status => simp only [State.readReg, State.statusWord, State.busy, hseq, hdone, herr, hwerr, hlastop]
  | ctrl => simp only [State.readReg, State.ctrlWord, hie]
  | decres => simp only [State.readReg, hcounter, hbutton]
  | kt0 | kt1 | kt2 | kt3 => simp only [State.readReg, hkt]
  | _ => cases r <;> simp [State.readReg, writeData] at h ⊢

/-- A reserved offset reads 0 and ignores a write (10_state.md R36). -/
theorem access_reserved {off : Byte} (h : off.extractLsb' 0 2 = 0) (ho : off = 0x3C ∨ 0x50 ≤ off) (v : Word) (s : State) :
    access ⟨false, off, 0b1111, v⟩ s = .next { s with reply := .data 0 } ∧
      access ⟨true, off, 0b1111, v⟩ s = .next { s with reply := .written } := by
  have hnone := regAt_reserved h ho
  rw [access_read h, access_write h]
  simp only [busRead, busWrite, hnone, and_self]

theorem payload_bytes (s : State) :
    (∀ i, ∀ h : i < 4, s.payload[i] = s.payload0.extractLsb' (8 * i) 8 ∧
      s.payload[4 + i] = s.payload1.extractLsb' (8 * i) 8) ∧ s.payload[8] = s.payload2 := by
  refine ⟨fun i h => ?_, rfl⟩
  match i with
  | 0 | 1 | 2 | 3 => exact ⟨rfl, rfl⟩

end Sys2Proof.Machine

open Sys2Proof Sys2Proof.Machine

/-- Settles O5: the write of CMD at an Idle block, and the same for the word `withFetchWord` places. -/
theorem stepRunsThePresentedCommand : Obligations.StepRunsThePresentedCommand :=
  ⟨fun _ _ _ _ _ ht hh hi hw => step_cmdWrite ht hh hi hw,
    fun s _ _ h => step_cmdWrite (s := s.withFetchWord 32 _) rfl rfl rfl (decodeWord_of_decodeTableWord h)⟩

/-- Settles O46, field by field of the word STATUS reads. -/
theorem statusFieldsAndWrites : Obligations.StatusFieldsAndWrites := by
  intro s v
  obtain ⟨hbusy, hdone, hwerr⟩ := statusWord_bits s
  obtain ⟨herr, hlow, hlastop, hhigh⟩ := statusWord_fields s
  exact ⟨hbusy.trans (busy_eq_beq s), hdone, herr, hwerr, hlow, hlastop, hhigh,
    (access_writeStatus v s).trans (congrArg _ (writeStatus_eq v _))⟩

/-- Settles O47: CTRL holds DONE_IE alone, and a soft reset takes the write's DONE_IE with it. -/
theorem ctrlWritesAndSoftReset : Obligations.CtrlWritesAndSoftReset := by
  intro s v
  refine ⟨(ctrlWord_bits s 0).trans (Bool.true_and _), fun b hb => ?_, fun h => ?_, fun h => ?_⟩
  · rw [State.readReg, ctrlWord_bits]
    simp [Nat.ne_of_gt hb]
  · exact (access_writeCtrl v s).trans (congrArg _ (writeCtrl_keeps h _))
  · exact ⟨_, (access_writeCtrl v s).trans (congrArg _ (writeCtrl_softReset h _)), resetBlock_atReset _, rfl⟩

/-- Settles O45: reads and writes of the window are those of the named registers, which stand at the listed offsets. -/
theorem registerMapReadsAndWrites : Obligations.RegisterMapReadsAndWrites := by
  refine ⟨fun off v s h ho => access_reserved h ho v s, fun r v s hi hr => ?_, by decide, fun s v hi x hx => ?_,
    fun s v hi x hx => ?_, fun s => ⟨append_eq_shiftLeft_or .., append_eq_shiftLeft_or .., payload_bytes s⟩⟩
  · obtain ⟨hseq, hport, -, -, -, -, -, -, -, -, hout, hfaults⟩ := writeData_keeps r v s
    obtain ⟨hhost, hturns⟩ := writeData_outside r v s
    refine ⟨_, access_writeData hr hi v, ?_, fun r' hne => ?_, hseq, hport, hout, hfaults, hhost, hturns⟩
    · rw [readReg_reply]; exact readReg_writeData_same hr v s
    · rw [readReg_reply]; exact readReg_writeData_other hne v s
  · rw [zero_append_eq_setWidth s.serial, zero_append_eq_setWidth s.payload2] at hx
    change x ∈ allRegs.map fun r => (r.offset, s.readReg r) at hx
    obtain ⟨r, -, rfl⟩ := List.mem_map.1 hx
    exact access_readReg_idle hi r v
  · rw [← BitVec.setWidth_eq_extractLsb' (w := 28) (by omega), ← BitVec.setWidth_eq_extractLsb' (w := 8) (by omega)] at hx
    change x ∈ dataRegs.map fun r => (r.offset, writeData r v s) at hx
    obtain ⟨r, hr, rfl⟩ := List.mem_map.1 hx
    exact access_writeData hr hi v
end

section
/-! Accesses that are refused, reads and writes that have no side effects, and what stands while a command runs. -/

namespace Sys2Proof.Machine

/-! ## Refused accesses -/

/-- The faults of an access, by its two defects (20_memory.md R62, R63). -/
theorem mem_faults_iff {a : BusAccess} {f : BusFault} :
    f ∈ a.faults ↔
      (f = .misaligned a.addr ∧ a.addr.extractLsb' 0 2 ≠ 0) ∨ (f = .partialAccess a.addr ∧ a.be ≠ 0b1111) := by
  unfold BusAccess.faults aligned fullWord
  rw [List.mem_append]
  refine or_congr ?_ ?_ <;> split <;> simp_all

theorem faults_ne_nil {a : BusAccess} (h : a.addr.extractLsb' 0 2 ≠ 0 ∨ a.be ≠ 0b1111) : a.faults ≠ [] := by
  obtain h | h := h
  · exact List.ne_nil_of_mem (mem_faults_iff.2 (.inl ⟨rfl, h⟩))
  · exact List.ne_nil_of_mem (mem_faults_iff.2 (.inr ⟨rfl, h⟩))

theorem mem_recordFault_iff {f g : BusFault} {s : State} : f ∈ (recordFault g s).faults ↔ f ∈ s.faults ∨ f = g := by
  rw [recordFault_faults]
  split
  next hg => exact ⟨.inl, fun h => h.elim id fun e => e ▸ hg⟩
  next => simp

/-- A refused access records its own faults beside the ones already recorded, and no other. -/
theorem mem_refuseAccess_iff {we : Bool} {fs : List BusFault} {f : BusFault} {s : State} :
    f ∈ (refuseAccess we fs s).faults ↔ f ∈ s.faults ∨ f ∈ fs := by
  change f ∈ (fs.foldl (fun s f => recordFault f s) s).faults ↔ _
  induction fs generalizing s with
  | nil => simp
  | cons g fs ih => rw [List.foldl_cons, ih, mem_recordFault_iff, List.mem_cons, or_assoc]

theorem access_refused {a : BusAccess} (h : a.faults ≠ []) (s : State) :
    access a s = .next (refuseAccess a.we a.faults s) := by
  unfold access
  split
  next hf => exact absurd hf h
  next hf => rw [hf]

/-! ## Reads -/

theorem unreadable_iff {s : State} {r : Reg} :
    s.unreadable r = true ↔ s.seq.phase = .busy ∧ ∃ i, s.running = some i ∧ r ∈ writeSet i := by
  rw [State.unreadable, Bool.and_eq_true, busy_eq_true]
  cases s.running <;> simp

/-- Outside the running command's write set a read is no draw (70_reset_and_hazards.md R272). -/
theorem readable_of_not_mem_writeSet {off : Byte} {s : State}
    (h : ∀ (r : Reg) (i : Instr), r.offset = off → s.seq.phase = .busy → s.running = some i → r ∉ writeSet i) (r : Reg)
    (hr : regAt off = some r) : s.unreadable r = false := by
  refine Bool.eq_false_iff.2 fun hu => ?_
  obtain ⟨hb, i, hi, hmem⟩ := unreadable_iff.1 hu
  exact h r i (eq_offset_of_regAt hr).symm hb hi hmem

/-- A read that is no draw answers with what lies at the offset. -/
theorem busRead_readable {off : Byte} {s : State} (h : ∀ r, regAt off = some r → s.unreadable r = false) :
    busRead off s = { s with reply := .data (s.readAt off) } := by
  unfold busRead State.readAt
  cases hr : regAt off with
  | none => rfl
  | some r => simp [h r hr]

theorem readAt_reply (s : State) (rep : Reply) (off : Byte) : State.readAt { s with reply := rep } off = s.readAt off := by
  unfold State.readAt
  cases regAt off with
  | none => rfl
  | some r => exact readReg_reply s rep r

/-- A read that is no draw gives the same answer when it is made again (20_memory.md R64). -/
theorem busRead_busRead {off : Byte} {s : State} (h : ∀ r, regAt off = some r → s.unreadable r = false) :
    busRead off (busRead off s) = busRead off s := by
  rw [busRead_readable h, busRead_readable (s := { s with reply := .data (s.readAt off) }) h]
  simp only [readAt_reply]

/-! ## Writes that are not dropped -/

theorem writeReg_notDropped {r : Reg} {s : State} (h : s.seq.phase = .idle ∨ r.guarded = false) (hstatus : r ≠ .status)
    (hctrl : r ≠ .ctrl) (v : Word) : writeReg r v s = writeData r v s := by
  obtain ⟨hr, -⟩ | ⟨hr, -⟩ | ⟨hb, hg, -⟩ | ⟨-, e⟩ := writeReg_cases r v s
  · exact absurd hr hstatus
  · exact absurd hr hctrl
  · rw [← busy_eq_false, hb, hg] at h
    simp at h
  · exact e

theorem access_write_notDropped {r : Reg} {s : State} (h : s.seq.phase = .idle ∨ r.guarded = false) (hcmd : r ≠ .cmd)
    (hstatus : r ≠ .status) (hctrl : r ≠ .ctrl) (v : Word) :
    access ⟨true, r.offset, 0b1111, v⟩ s = .next { writeData r v s with reply := .written } := by
  rw [access_writeReg hcmd, writeReg_notDropped (s := { s with reply := .written }) h hstatus hctrl, writeData_reply]

/-- Storing the value a register holds changes nothing: its fields are the bits of that value (20_memory.md R64). -/
theorem writeData_readReg (r : Reg) (s : State) : writeData r (s.readReg r) s = s := by
  cases r with
  | serial =>
    have h : (s.serial.setWidth 32).setWidth 28 = s.serial := BitVec.setWidth_setWidth_of_le _ (by omega)
    simp only [writeData, State.readReg, h]
  | payload2 =>
    have h : (s.payload2.setWidth 32).setWidth 8 = s.payload2 := BitVec.setWidth_setWidth_of_le _ (by omega)
    simp only [writeData, State.readReg, h]
  | cntbtn =>
    have hcounter : ((0 : Byte) ++ s.button ++ s.counter).extractLsb' 0 16 = s.counter :=
      BitVec.extractLsb'_append_eq_right
    have hbutton : ((0 : Byte) ++ s.button ++ s.counter).extractLsb' 16 8 = s.button := by
      rw [BitVec.extractLsb'_append_eq_of_le (by omega)]
      exact BitVec.extractLsb'_append_eq_right
    simp only [writeData, State.readReg, hcounter, hbutton]
  | _ => rfl

/-! ## What stands while a command runs -/

/-- `t` is `s` with neither a data register nor KT, DECRES, ERR or LASTOP changed, and the same command and record list
latched. -/
def KeepsInputs (s t : State) : Prop :=
  t = { s with
    doneFlag := t.doneFlag, werr := t.werr, doneIe := t.doneIe, seq := t.seq, port := t.port, out := t.out
    faults := t.faults, host := t.host, reply := t.reply, turns := t.turns, draws := t.draws } ∧
  t.seq.op = s.seq.op ∧ t.seq.tsel = s.seq.tsel ∧ t.seq.recs = s.seq.recs

/-- Neither STATUS.DONE, WERR, CTRL and the port nor anything outside the block is an input of the running command. -/
theorem keepsInputs_update (s : State) (doneFlag werr doneIe : Bool) (port : Port) (out : List Record)
    (faults : List BusFault) (host : List HostAction) (reply : Reply) (turns : List Turn) (draws : Nat) :
    KeepsInputs s { s with
      doneFlag := doneFlag, werr := werr, doneIe := doneIe, port := port, out := out, faults := faults, host := host
      reply := reply, turns := turns, draws := draws } := ⟨rfl, rfl, rfl, rfl⟩

theorem KeepsInputs.trans {s t u : State} (h : KeepsInputs s t) (h' : KeepsInputs t u) : KeepsInputs s u := by
  obtain ⟨ht, hop, htsel, hrecs⟩ := h
  obtain ⟨hu, hop', htsel', hrecs'⟩ := h'
  refine ⟨?_, hop'.trans hop, htsel'.trans htsel, hrecs'.trans hrecs⟩
  rw [ht] at hu
  exact hu

theorem KeepsInputs.readReg {s t : State} (h : KeepsInputs s t) {r : Reg} (hstatus : r ≠ .status) (hctrl : r ≠ .ctrl) :
    t.readReg r = s.readReg r := by
  obtain ⟨e, -⟩ := h
  rw [e]
  cases r with
  | status => exact absurd rfl hstatus
  | ctrl => exact absurd rfl hctrl
  | _ => rfl

theorem KeepsInputs.running {s t : State} (h : KeepsInputs s t) : t.running = s.running := by
  obtain ⟨-, hop, htsel, -⟩ := h
  simp only [State.running, hop, htsel]

theorem KeepsInputs.recs {s t : State} (h : KeepsInputs s t) : t.seq.recs = s.seq.recs := by
  obtain ⟨-, -, -, hrecs⟩ := h
  exact hrecs

/-- What a move of a running block does: it ends the command, or leaves its inputs as they are. -/
def EndsOrKeepsInputs (s t : State) : Prop := t.seq.phase = .idle ∨ KeepsInputs s t

/-- The registers and the latched command do not depend on what the host has left to do. -/
theorem endsOrKeepsInputs_setHost_iff (s t : State) (host : List HostAction) :
    EndsOrKeepsInputs { s with host := host } t ↔ EndsOrKeepsInputs s t := Iff.rfl

theorem writeReg_endsOrKeepsInputs {s : State} (hb : s.seq.phase = .busy) (r : Reg) (v : Word) :
    EndsOrKeepsInputs s (writeReg r v s) := by
  obtain ⟨-, e⟩ | ⟨-, e⟩ | ⟨-, -, e⟩ | ⟨hr, e⟩ := writeReg_cases r v s <;> rw [e]
  · exact .inr (keepsInputs_update s ..)
  · unfold writeCtrl
    split
    · exact .inl rfl
    · exact .inr (keepsInputs_update s ..)
  · exact .inr (keepsInputs_update s ..)
  · rw [busy_eq_true.2 hb] at hr
    rw [writeData_of_not_guarded (hr.resolve_left (by simp))]
    exact .inr (keepsInputs_update s ..)

theorem access_endsOrKeepsInputs {a : BusAccess} {s t : State} (hb : s.seq.phase = .busy) (h : access a s = .next t) :
    EndsOrKeepsInputs s t := by
  cases access_move h with
  | refused => rw [refuseAccess_eq]; exact .inr (keepsInputs_update s ..)
  | read => obtain ⟨v, e⟩ | e := busRead_cases a.addr s <;> rw [e] <;> exact .inr (keepsInputs_update s ..)
  | reserved => exact .inr (keepsInputs_update s ..)
  | command _ _ _ hc =>
    obtain ⟨-, rfl⟩ | ⟨hi, -⟩ | ⟨hi, -⟩ := writeCmd_cases hc
    · exact .inr (keepsInputs_update s ..)
    · cases hb.symm.trans hi
    · cases hb.symm.trans hi
  | register => exact writeReg_endsOrKeepsInputs (s := { s with reply := .written }) hb _ _

theorem CompletesInto.idle {s t : State} (h : CompletesInto s t) : t.seq.phase = .idle := by
  rw [h]
  rfl

theorem completeTurn_endsOrKeepsInputs {s t : State} (h : completeTurn s = .next t) : EndsOrKeepsInputs s t := by
  obtain ⟨i, hb, -, hp, e⟩ | ⟨-, e⟩ := completeTurn_cases s
  · obtain ⟨u, hu, hc⟩ := exec_busy hb hp
    cases (e.trans hu).symm.trans h
    exact .inl hc.idle
  · cases e.symm.trans h
    exact .inr (keepsInputs_update s ..)

theorem transfer_endsOrKeepsInputs (s : State) : EndsOrKeepsInputs s (transfer s) := by
  obtain ⟨-, e⟩ | ⟨r, -, -, e⟩ | ⟨r, -, -, e⟩ := transfer_cases s <;> rw [e]
  · exact .inr (keepsInputs_update s ..)
  · exact .inr ⟨rfl, rfl, rfl, rfl⟩
  · exact .inl rfl

/-- Only PULSE loads records. -/
theorem loadPass_recs {i : Instr} (hi : i ≠ .pulse) (n : Fin 3) (s : State) (q : Seq) :
    (loadPass i n s q).recs = q.recs := by
  cases i with
  | pulse => exact absurd rfl hi
  | encPayload | decPayload | build | decode => match n with | 0 | 1 | 2 => rfl
  | _ => rfl

theorem savePass_recs (i : Instr) (q : Seq) : (savePass i q).recs = q.recs := by
  cases i with
  | encPayload | decPayload | build | decode => by_cases h : q.pass = 0 <;> simp [savePass, h]
  | _ => rfl

theorem bitStepped_keepsInputs (i : Instr) (kind : PassKind) (s : State) : KeepsInputs s (bitStepped i kind s) := by
  obtain ⟨-, hop, htsel, -, -, hrecs, -⟩ := bitStep_keeps kind (passTable i s.seq.pass s s.seq) s.seq
  exact ⟨rfl, hop, htsel, hrecs⟩

theorem nextPass_keepsInputs {i : Instr} (hi : i ≠ .pulse) (s : State) : KeepsInputs s (nextPass i s) := by
  obtain ⟨-, hop, htsel, -⟩ := loadPass_keeps i (s.seq.pass + 1) s { savePass i s.seq with pass := s.seq.pass + 1 }
  obtain ⟨-, hop', htsel'⟩ := savePass_keeps i s.seq
  exact ⟨rfl, hop.trans hop', htsel.trans htsel', (loadPass_recs hi ..).trans (savePass_recs i s.seq)⟩

theorem cycle_endsOrKeepsInputs (i : Instr) (s : State) : EndsOrKeepsInputs s (cycle i s) := by
  have not_pulse {kind : PassKind} (hk : passKind i s.seq.pass = some kind) : i ≠ .pulse := by rintro rfl; cases hk
  have hmove := cycle_move i s
  generalize cycle i s = t at hmove
  cases hmove with
  | still => exact .inr (keepsInputs_update s ..)
  | inPass => exact .inr (bitStepped_keepsInputs i _ s)
  | endOfPass hk => exact .inr ((bitStepped_keepsInputs i _ s).trans (nextPass_keepsInputs (not_pulse hk) _))
  | endOfCommand hk => exact .inl (commitDatapath_completesInto (not_pulse hk) _).idle

/-- Each turn at a running block ends the command, or leaves its inputs as they are (70_reset_and_hazards.md R270). -/
theorem takeTurn_endsOrKeepsInputs {turn : Turn} {s t : State} (hb : s.seq.phase = .busy) (h : takeTurn turn s = .next t) :
    EndsOrKeepsInputs s t := by
  cases turn with
  | host =>
    obtain ⟨a, rest, -, ha⟩ | ⟨hs, rep, n, rfl⟩ := hostTurn_cases h
    · exact (endsOrKeepsInputs_setHost_iff s t rest).1 (access_endsOrKeepsInputs hb ha)
    · exact .inr (keepsInputs_update s ..)
  | complete => exact completeTurn_endsOrKeepsInputs h
  | tick =>
    cases h
    obtain ⟨i, -, -, e⟩ | e := tickTurn_cases s <;> rw [e]
    · exact cycle_endsOrKeepsInputs i s
    · exact .inr (keepsInputs_update s ..)
  | transfer =>
    obtain ⟨-, -, e⟩ | e := transferTurn_cases s <;> cases e.symm.trans h
    · exact transfer_endsOrKeepsInputs s
    · exact .inr (keepsInputs_update s ..)
  | hardReset => cases h; exact .inl rfl
  | hostInReset =>
    cases h
    obtain ⟨hs, rep, e⟩ := hostInReset_cases s
    rw [e]
    exact .inl rfl

end Sys2Proof.Machine

open Sys2Proof Sys2Proof.Machine

/-- Settles O41: the fault set after a refusal is the old one and the access's own faults, and every turn keeps the old one. -/
theorem badAccessIsRefusedAndRecorded : Obligations.BadAccessIsRefusedAndRecorded := by
  refine ⟨fun _ => rfl, rfl, fun s t h => ?_, fun a s hbad => ?_⟩
  · rw [step_eq_takeTurn] at h
    exact (takeTurn_historyGrows h).1
  · refine ⟨(refuseAccess a.we a.faults s).faults, ?_, fun h => ?_, fun h => ?_, fun f hf => ?_, fun f hf => ?_⟩
    · rw [access_refused (faults_ne_nil hbad), ← refuseAccess_eq]
    · exact mem_refuseAccess_iff.2 (.inr (mem_faults_iff.2 (.inl ⟨rfl, h⟩)))
    · exact mem_refuseAccess_iff.2 (.inr (mem_faults_iff.2 (.inr ⟨rfl, h⟩)))
    · exact mem_refuseAccess_iff.2 (.inl hf)
    · exact (mem_refuseAccess_iff.1 hf).imp_right mem_faults_iff.1

/-- Settles O44: a read moves the answer and the draw count alone, and a write that is not dropped is `writeData`. -/
theorem readsHaveNoSideEffects : Obligations.ReadsHaveNoSideEffects := by
  refine ⟨fun off v s h => ?_, fun off v s t h hset ht => ?_, fun r s hr hcmd hstatus hctrl => ?_,
    fun r v s t hr hcmd hstatus hctrl ht => ?_⟩
  · rw [access_read h]
    obtain ⟨x, e⟩ | e := busRead_cases off s <;> rw [e]
    · exact ⟨x, s.draws, rfl⟩
    · exact ⟨_, _, rfl⟩
  · rw [access_read h] at ht ⊢
    cases ht
    rw [busRead_busRead (readable_of_not_mem_writeSet hset)]
  · rw [access_write_notDropped hr hcmd hstatus hctrl, writeData_readReg]
  · rw [access_write_notDropped hr hcmd hstatus hctrl] at ht
    cases ht
    obtain ⟨hseq, hport, -, -, -, -, -, -, -, -, hout, hfaults⟩ := writeData_keeps r v s
    obtain ⟨hhost, hturns⟩ := writeData_outside r v s
    refine ⟨fun r' hne => ?_, hseq, hport, hout, hfaults, hhost, hturns⟩
    rw [readReg_reply]
    exact readReg_writeData_other hne v s

/-- Settles O52: a step is a turn, and a turn that does not end the command leaves its inputs. -/
theorem inputsStandWhileBusy : Obligations.InputsStandWhileBusy := by
  intro s t hb h hb'
  rw [step_eq_takeTurn] at h
  have hmove := takeTurn_endsOrKeepsInputs (s := { s with turns := s.turns.tail }) hb h
  have hkeeps : KeepsInputs s t := hmove.resolve_left (by simp [hb'])
  exact ⟨fun _ hstatus hctrl => hkeeps.readReg hstatus hctrl, hkeeps.running, fun _ => hkeeps.recs⟩
end

section
/-! The command decoder: it reads a command from that command's encoding alone, and `legal` is the test for such words. -/

namespace Sys2Proof.Machine

/-! ## The decoder inverts the encoder -/

/-- A word with RSVD = 0 is put together again from its TSEL and OP (30_encoding.md R80). -/
theorem commandWord_fields {w : Word} (h : rsvdField w = 0) : commandWord (opField w) (tselField w) = w := by
  have low : tselField w ++ opField w = w.extractLsb' 0 6 := BitVec.extractLsb'_append_extractLsb'_eq_extractLsb' rfl
  have whole : rsvdField w ++ w.extractLsb' 0 6 = w.extractLsb' 0 32 :=
    BitVec.extractLsb'_append_extractLsb'_eq_extractLsb' rfl
  calc
    commandWord (opField w) (tselField w) = rsvdField w ++ (tselField w ++ opField w) := by
      rw [h]; exact BitVec.append_assoc
    _ = w := by rw [low, whole, BitVec.extractLsb'_eq_self]

/-- The opcode map reads a command at its own OP and TSEL only (30_encoding.md R81, R83). -/
theorem fields_of_decodeOp {op : BitVec 4} {tsel : BitVec 2} {i : Instr} (h : decodeOp op tsel = .ok i) :
    opcodeOf i = op ∧ tselOf i = tsel := by
  have table : ∀ (op : BitVec 4) (tsel : BitVec 2), ∀ i ∈ (decodeOp op tsel).toOption, opcodeOf i = op ∧ tselOf i = tsel := by
    decide
  exact table op tsel i (by rw [h]; rfl)

theorem decodeWord_eq_ok_iff {w : Word} {i : Instr} : decodeWord w = .ok i ↔ w = encode i := by
  constructor
  · intro h
    unfold decodeWord at h
    split at h
    next hr =>
      obtain ⟨hop, htsel⟩ := fields_of_decodeOp h
      rw [encode, hop, htsel, commandWord_fields hr]
    next => cases h
  · rintro rfl
    exact decodeWord_encode i

/-! ## The legality test -/

theorem legal_iff {w : Word} :
    legal w = true ↔ rsvdField w = 0 ∧ (opField w).toNat ≤ 0xB ∧
      (if opField w = 0x5 ∨ opField w = 0x6 then tselField w ≠ 3 else tselField w = 0) := by
  unfold legal
  split <;> simp [and_assoc]

/-- The opcode map has a command exactly where R84 allows OP and TSEL. -/
theorem decodeOp_isOk (op : BitVec 4) (tsel : BitVec 2) :
    (decodeOp op tsel).isOk = (decide (op.toNat ≤ 0xB) && if op = 0x5 ∨ op = 0x6 then tsel != 3 else tsel == 0) := by
  revert op tsel
  decide

theorem legal_eq_isOk (w : Word) : legal w = (decodeWord w).isOk := by
  unfold legal decodeWord
  by_cases hr : rsvdField w = 0
  · rw [if_pos hr, decodeOp_isOk, hr]; rfl
  · rw [if_neg hr, beq_false_of_ne hr]; rfl

theorem legal_iff_decodes {w : Word} : legal w = true ↔ ∃ i, decodeWord w = .ok i := by
  rw [legal_eq_isOk]
  cases decodeWord w <;> simp [Except.isOk, Except.toBool]

theorem not_legal_iff_rejected {w : Word} : legal w = false ↔ ∃ e, decodeWord w = .error e := by
  rw [legal_eq_isOk]
  cases decodeWord w <;> simp [Except.isOk, Except.toBool]

/-- An illegal word starts nothing, whatever its OP (30_encoding.md R84, 60_exceptions.md R221). -/
theorem illegalVariant_of_not_legal {w : Word} (hw : legal w = false) : IllegalVariant (opField w) w := by
  refine ⟨hw, fun s hi => ?_⟩
  obtain ⟨e, he⟩ := not_legal_iff_rejected.1 hw
  simp only [presentWord, he, complete, presented, ← hi]

/-! ## The list of the legal words -/

/-- Every command, in the order of the table of 30_encoding.md R86. -/
def allCommands : List Instr :=
  [.nop, .stdEnc, .stdDec, .derive, .expand, .scrL .dkey, .scrL .kt0, .scrL .kt1, .scrR .dkey, .scrR .kt0, .scrR .kt1,
    .encPayload, .decPayload, .build, .decode, .pulse]

theorem mem_allCommands (i : Instr) : i ∈ allCommands := by
  cases i with
  | scrL t => cases t <;> decide
  | scrR t => cases t <;> decide
  | _ => decide

theorem legal_iff_mem_encodings {w : Word} : legal w = true ↔ w ∈ allCommands.map encode := by
  rw [legal_iff_decodes]
  simp only [decodeWord_eq_ok_iff, List.mem_map, mem_allCommands, true_and, eq_comm (a := w)]

end Sys2Proof.Machine

open Sys2Proof Sys2Proof.Machine

/-- Settles O1: with RSVD = 0 a word is its OP and TSEL, and the opcode map gives each pair back. -/
theorem decodeReadsExactlyTheEncodedWord : Obligations.DecodeReadsExactlyTheEncodedWord :=
  fun _ _ => decodeWord_eq_ok_iff

/-- Settles O2: the legality test accepts the words that decode, and the decoder is a function. -/
theorem legalWordSelectsOneCommand : Obligations.LegalWordSelectsOneCommand := by
  refine ⟨fun w => legal_iff, fun w hw => ?_, fun w hw => ?_⟩
  · obtain ⟨i, hi⟩ := legal_iff_decodes.1 hw
    exact ⟨i, hi, fun j hj => by simpa [hi, eq_comm] using hj⟩
  · obtain ⟨-, hpresent⟩ := illegalVariant_of_not_legal hw
    exact ⟨not_legal_iff_rejected.1 hw, hpresent⟩

/-- Settles O3: the table of R86 lists every command with its encoding. -/
theorem sixteenWordsAreLegal : Obligations.SixteenWordsAreLegal := by
  refine ⟨fun w i h => ?_, fun w => legal_iff_mem_encodings⟩
  change (w, i) ∈ allCommands.map fun i => (encode i, i) at h
  obtain ⟨j, -, e⟩ := List.mem_map.1 h
  cases e
  exact decodeWord_encode i

/-- Settles O4: the written words are encodings. -/
theorem writtenWordsDecode : Obligations.WrittenWordsDecode :=
  ⟨decodeWord_encode .nop, decodeWord_encode .derive, decodeWord_encode (.scrL .kt1), decodeWord_encode .build,
    decodeWord_encode .pulse⟩
end

section
/-! The rounds of the StandardCipher, bit by bit: the recurrences they follow, the key bits they read, and why decryption
undoes encryption (40_standard_cipher.md R100 to R105). -/

namespace Sys2Proof.Machine

/-! ## Repetition -/

/-- Repeating a step runs through any sequence that follows it. -/
theorem times_eq_of_follows {α : Type} {f : α → α} {x : Nat → α} {n : Nat} (h : ∀ r < n, f (x r) = x (r + 1)) :
    times f n (x 0) = x n := by
  induction n with
  | zero => rfl
  | succ n ih => rw [times, ih fun r hr => h r (Nat.lt_succ_of_lt hr), h n n.lt_succ_self]

/-- What a step leaves in place, its repetition leaves in place. -/
theorem times_of_fixed {α : Type} {f : α → α} {x : α} (h : f x = x) (n : Nat) : times f n x = x :=
  times_eq_of_follows (x := fun _ => x) fun _ _ => h

/-- A step that undoes another under a change of state, repeated, undoes the other's repetition under it. -/
theorem times_undoes {α : Type} {f g φ : α → α} (h : ∀ x, g (φ (f x)) = φ x) (n : Nat) (x : α) :
    times g n (φ (times f n x)) = φ x := by
  induction n with
  | zero => rfl
  | succ n ih => rw [times_succ_apply g, times, h, ih]

/-! ## Rotation of the key copy -/

theorem getLsbD_rotateRight_key (k : DWord) (n : Nat) {i : Nat} (hi : i < 64) :
    (k.rotateRight n).getLsbD i = k.getLsbD ((i + n) % 64) := by
  rw [BitVec.getLsbD_rotateRight]
  by_cases h : i < 64 - n % 64
  · simp [h, show (i + n) % 64 = n % 64 + i by omega]
  · simp [h, hi, show (i + n) % 64 = i - (64 - n % 64) by omega]

theorem getLsbD_rotateLeft_key (k : DWord) (n : Nat) {i : Nat} (hi : i < 64) :
    (k.rotateLeft n).getLsbD i = k.getLsbD ((i + (64 - n % 64)) % 64) := by
  rw [BitVec.getLsbD_rotateLeft]
  by_cases h : i < n % 64
  · simp [h, show (i + (64 - n % 64)) % 64 = 64 - n % 64 + i by omega]
  · simp [h, hi, show (i + (64 - n % 64)) % 64 = i - n % 64 by omega]

theorem rotateRight_rotateRight_key (k : DWord) (m n : Nat) : (k.rotateRight m).rotateRight n = k.rotateRight (m + n) := by
  apply BitVec.eq_of_getLsbD_eq
  intro i hi
  rw [getLsbD_rotateRight_key _ _ hi, getLsbD_rotateRight_key _ _ (Nat.mod_lt _ (by decide)), getLsbD_rotateRight_key _ _ hi]
  congr 1
  omega

theorem rotateLeft_rotateLeft_key (k : DWord) (m n : Nat) : (k.rotateLeft m).rotateLeft n = k.rotateLeft (m + n) := by
  apply BitVec.eq_of_getLsbD_eq
  intro i hi
  rw [getLsbD_rotateLeft_key _ _ hi, getLsbD_rotateLeft_key _ _ (Nat.mod_lt _ (by decide)), getLsbD_rotateLeft_key _ _ hi]
  congr 1
  omega

theorem rotateLeft_rotateRight_key (k : DWord) (n : Nat) : (k.rotateRight n).rotateLeft n = k := by
  apply BitVec.eq_of_getLsbD_eq
  intro i hi
  rw [getLsbD_rotateLeft_key _ _ hi, getLsbD_rotateRight_key _ _ (Nat.mod_lt _ (by decide))]
  congr 1
  omega

theorem times_rotr64 (n : Nat) (k : DWord) : times rotr64 n k = k.rotateRight n := by
  induction n with
  | zero => simp [times, BitVec.rotateRight_def]
  | succ n ih => rw [times, ih]; exact rotateRight_rotateRight_key k n 1

theorem times_rotl64 (n : Nat) (k : DWord) : times rotl64 n k = k.rotateLeft n := by
  induction n with
  | zero => simp [times, BitVec.rotateLeft_def, BitVec.ushiftRight_eq_zero]
  | succ n ih => rw [times, ih]; exact rotateLeft_rotateLeft_key k n 1

/-- The key copy rotates whatever the block holds. -/
theorem times_encRound_key (t : StdTaps) (n : Nat) (b : Word) (k : DWord) :
    (times (encRound t) n (b, k)).2 = k.rotateRight n := by
  rw [← times_rotr64]
  induction n with
  | zero => rfl
  | succ n ih => exact congrArg rotr64 ih

theorem times_decRound_key (t : StdTaps) (n : Nat) (b : Word) (k : DWord) :
    (times (decRound t) n (b, k)).2 = k.rotateLeft n := by
  rw [← times_rotl64]
  induction n with
  | zero => rfl
  | succ n ih => exact congrArg rotl64 ih

/-! ## One round, bit by bit -/

/-- The index is the number whose binary digits are the tapped bits (R101). -/
theorem nlf_tapIndex (b : Word) (t : StdTaps) : nlf (tapIndex b t) = nlfAt b t.t0 t.t1 t.t2 t.t3 t.t4 := by
  have number : ∀ b0 b1 b2 b3 b4 : Bool,
      (BitVec.ofBool b4 ++ BitVec.ofBool b3 ++ BitVec.ofBool b2 ++ BitVec.ofBool b1 ++ BitVec.ofBool b0).toNat =
        b0.toNat + 2 * b1.toNat + 4 * b2.toNat + 8 * b3.toNat + 16 * b4.toNat := by decide
  exact congrArg nlfTable.getLsbD (number ..)

theorem getLsbD_encRound (t : StdTaps) (x : Word × DWord) {j : Nat} (hj : j < 32) :
    (encRound t x).1.getLsbD j = if j = 31 then encFeedback t x.1 x.2 else x.1.getLsbD (j + 1) := by
  obtain rfl | hne := eq_or_ne j 31
  · simp [encRound]
  · simp [encRound, hne, show j < 31 by omega, Nat.add_comm]

theorem getLsbD_decRound (t : StdTaps) (x : Word × DWord) {j : Nat} (hj : j < 32) :
    (decRound t x).1.getLsbD j = if j = 0 then decFeedback t x.1 x.2 else x.1.getLsbD (j - 1) := by
  cases j with
  | zero => simp [decRound]
  | succ j => simp [decRound, hj, BitVec.getLsbD_eq_getElem (show j < 32 by omega)]

/-- A round of R102 is known by its new bit 31, the other bits moved down and the rotated key copy. -/
theorem encRound_eq {t : StdTaps} {b b' : Word} {k k' : DWord} (hshift : ∀ j < 31, b'.getLsbD j = b.getLsbD (j + 1))
    (hnew : b'.getLsbD 31 = encFeedback t b k) (hkey : k' = k.rotateRight 1) : encRound t (b, k) = (b', k') := by
  refine Prod.ext (BitVec.eq_of_getLsbD_eq fun j hj => ?_) hkey.symm
  rw [getLsbD_encRound t _ hj]
  split
  next h => rw [h, hnew]
  next h => exact (hshift j (by omega)).symm

/-- A round of R103 is known by its new bit 0, the other bits moved up and the rotated key copy. -/
theorem decRound_eq {t : StdTaps} {b b' : Word} {k k' : DWord} (hshift : ∀ j < 31, b'.getLsbD (j + 1) = b.getLsbD j)
    (hnew : b'.getLsbD 0 = decFeedback t b k) (hkey : k' = k.rotateLeft 1) : decRound t (b, k) = (b', k') := by
  refine Prod.ext (BitVec.eq_of_getLsbD_eq fun j hj => ?_) hkey.symm
  cases j with
  | zero => rw [getLsbD_decRound t _ hj, if_pos rfl, hnew]
  | succ j => rw [getLsbD_decRound t _ hj, if_neg j.succ_ne_zero]; exact (hshift j (by omega)).symm

/-! ## Decryption undoes encryption -/

/-- Each decrypt tap is one below the encrypt tap, so after an encrypt round it reads the bit that tap has read. -/
theorem tapIndex_encRound (r : TapReading) (t : StdTaps) (x : Word × DWord) :
    tapIndex (encRound t x).1 (decTaps r) = tapIndex x.1 (encTaps r) := by
  cases r <;> simp (disch := decide) only [tapIndex, decTaps, encTaps, getLsbD_encRound] <;> rfl

/-- The state from which decryption goes on where encryption stands: its key copy is 16 positions further left, so that its
bit 15 is the bit that the last encrypt round has moved to the top (R105). -/
def decSide (x : Word × DWord) : Word × DWord := (x.1, x.2.rotateLeft 16)

/-- Out of the feedback of an encrypt round the decrypt round gets back the bit that has been shifted out. -/
theorem decFeedback_encRound (r : TapReading) (b : Word) (k : DWord) :
    decFeedback (decTaps r) (encRound (encTaps r) (b, k)).1 ((rotr64 k).rotateLeft 16) = b.getLsbD 0 := by
  have hkey : ((rotr64 k).rotateLeft 16).getLsbD 15 = k.getLsbD 0 :=
    (getLsbD_rotateLeft_key _ 16 (by decide)).trans (getLsbD_rotateRight_key k 1 (by decide))
  have cancel : ∀ n b0 b16 k0 : Bool, (n ^^ (n ^^ b0 ^^ b16 ^^ k0) ^^ b16 ^^ k0) = b0 := by decide
  rw [decFeedback, tapIndex_encRound, hkey, getLsbD_encRound _ _ (by decide), getLsbD_encRound _ _ (by decide)]
  exact cancel ..

theorem decRound_encRound (r : TapReading) (x : Word × DWord) :
    decRound (decTaps r) (decSide (encRound (encTaps r) x)) = decSide x := by
  obtain ⟨b, k⟩ := x
  refine decRound_eq (fun j hj => ?_) (decFeedback_encRound r b k).symm ?_
  · rw [getLsbD_encRound _ _ (by omega), if_neg (by omega)]
  · rw [rotateLeft_rotateLeft_key, Nat.add_comm, ← rotateLeft_rotateLeft_key]
    exact congrArg (BitVec.rotateLeft · 16) (rotateLeft_rotateRight_key k 1).symm

/-- 528 rounds leave encryption's key copy 16 positions to the right, which is where decryption starts. -/
theorem stdDec_stdEnc (c : Cfg) (b : Word) (k : DWord) : stdDec c (stdEnc c b k) k = b := by
  have hstart : decSide (times (encRound (encTaps c.stdTapReading)) 528 (b, k)) = (stdEnc c b k, k) := by
    refine Prod.ext rfl ?_
    rw [decSide, times_encRound_key]
    exact rotateLeft_rotateRight_key k 16
  have hundo := times_undoes (decRound_encRound c.stdTapReading) 528 (b, k)
  rw [hstart] at hundo
  exact congrArg Prod.fst hundo

/-- On the finite set of blocks the left inverse is the right inverse too. -/
theorem stdEnc_stdDec (c : Cfg) (b : Word) (k : DWord) : stdEnc c (stdDec c b k) k = b := by
  have hinv : Function.LeftInverse (stdDec c · k) (stdEnc c · k) := (stdDec_stdEnc c · k)
  exact hinv.rightInverse_of_surjective (Finite.surjective_of_injective hinv.injective) b

/-! ## KEY -/

/-- A command's turn, like every move of the sequencer, leaves the fields that only the host's agent writes. -/
theorem exec_sequencerFrame {i : Instr} {s t : State} (h : exec i s = .next t) : SequencerFrame s t := by
  cases hp : s.seq.phase with
  | idle => obtain ⟨code, rfl⟩ | ⟨-, -, -, rfl⟩ | ⟨-, rfl⟩ := exec_idle_cases hp h <;> exact SequencerFrame.refl s
  | busy =>
    by_cases hi : i = .pulse
    · subst hi
      cases (exec_pulse_busy hp).symm.trans h
      exact transfer_sequencerFrame s
    · obtain ⟨u, hu, hc⟩ := exec_busy hp hi
      cases hu.symm.trans h
      exact hc.sequencerFrame

theorem SequencerFrame.key {s t : State} (h : SequencerFrame s t) : t.key = s.key := by
  obtain ⟨⟨hlo, hhi, -⟩, -⟩ := h
  rw [State.key, hlo, hhi, State.key]

end Sys2Proof.Machine

open Sys2Proof Sys2Proof.Machine

/-- Settles O24: the sequences follow the encrypt round, whose bits are the rule's. -/
theorem stdEncIsTheStatedRecurrence : Obligations.StdEncIsTheStatedRecurrence := by
  intro c block key b k f hb hk h
  have hround : ∀ r < 528, encRound (encTaps c.stdTapReading) (b r, k r) = (b (r + 1), k (r + 1)) := by
    intro r hr
    obtain ⟨hf, hshift, hnew, hkey⟩ := h r hr
    refine encRound_eq hshift (hnew.trans ?_) hkey
    rw [hf, encFeedback, nlf_tapIndex]
    cases c.stdTapReading <;> rfl
  rw [stdEnc, ← hb, ← hk, times_eq_of_follows (x := fun r => (b r, k r)) hround]

/-- Settles O25: the sequences follow the decrypt round, whose bits are the rule's. -/
theorem stdDecIsTheStatedRecurrence : Obligations.StdDecIsTheStatedRecurrence := by
  intro c block key b k f hb hk h
  have hround : ∀ r < 528, decRound (decTaps c.stdTapReading) (b r, k r) = (b (r + 1), k (r + 1)) := by
    intro r hr
    obtain ⟨hf, hshift, hnew, hkey⟩ := h r hr
    refine decRound_eq hshift (hnew.trans ?_) hkey
    rw [hf, decFeedback, nlf_tapIndex]
    cases c.stdTapReading <;> rfl
  rw [stdDec, ← hb, ← hk, times_eq_of_follows (x := fun r => (b r, k r)) hround]

/-- Settles O26: each decrypt round undoes an encrypt round, and a block has 2^32 values. -/
theorem standardCipherIsInvertible : Obligations.StandardCipherIsInvertible :=
  fun c b k => ⟨stdDec_stdEnc c b k, stdEnc_stdDec c b k⟩

/-- Settles O27: after `n` rounds the copy is KEY rotated by `n`, and no move of the sequencer writes KEY. -/
theorem keyScheduleReadsEveryBit : Obligations.KeyScheduleReadsEveryBit := by
  refine fun t b k => ⟨fun r _ => ?_, fun j hj => ?_, ?_, ?_, fun i s u h => (exec_sequencerFrame h).key,
    fun s => (tickTurn_sequencerFrame s).key⟩
  · rw [times_encRound_key, getLsbD_rotateRight_key k r (by decide), Nat.zero_add]
  · rw [times_decRound_key, getLsbD_rotateLeft_key k j (by decide)]
    congr 1
    omega
  · rw [times_encRound_key, ← BitVec.rotateRight_mod_eq_rotateRight]
  · rw [times_decRound_key, ← BitVec.rotateLeft_mod_eq_rotateLeft]
end

section
/-! STD_ENC, STD_DEC and DERIVE: the words that start nothing, acceptance, completion, and the device key
(40_standard_cipher.md R106, R110 to R112). -/

namespace Sys2Proof.Machine

/-! ## Words of a command without an operand -/

theorem opField_encode (i : Instr) : opField (encode i) = opcodeOf i := by
  cases i with
  | scrL t | scrR t => cases t <;> rfl
  | _ => rfl

/-- Beside the encoding of a command that has its OP alone, every word with that OP is illegal. -/
theorem illegalVariant_of_ne_encode {i : Instr} (halone : ∀ j ∈ allCommands, opcodeOf j = opcodeOf i → j = i) {w : Word}
    (hop : opField w = opcodeOf i) (hne : w ≠ encode i) : IllegalVariant (opcodeOf i) w := by
  rw [← hop]
  refine illegalVariant_of_not_legal (Bool.eq_false_iff.2 fun hw => hne ?_)
  obtain ⟨j, hj⟩ := legal_iff_decodes.1 hw
  have hwj : w = encode j := decodeWord_eq_ok_iff.1 hj
  rw [hwj, opField_encode] at hop
  rw [hwj, halone j (mem_allCommands j) hop]

/-! ## Acceptance and completion -/

/-- Presented to an Idle block, a command other than NOP, BUILD and PULSE is accepted, whatever the registers hold. -/
theorem exec_idle_accepted {i : Instr} (hn : i ≠ .nop) (hb : i ≠ .build) (hp : i ≠ .pulse) {s : State}
    (h : s.seq.phase = .idle) : ∃ t, exec i s = .next t ∧ AcceptedAs (opcodeOf i) (tselOf i) s t := by
  have he : exec i s = .next (accept i s) := by
    unfold exec
    cases i with
    | nop => exact absurd rfl hn
    | build => exact absurd rfl hb
    | pulse => exact absurd rfl hp
    | _ => exact commandTurn_idle h
  obtain ⟨hphase, hop, htsel, -⟩ := accept_latched i s
  exact ⟨accept i s, he, (accept i s).seq, rfl, hphase, hop, htsel⟩

/-- DERIVE's result commits its high half to DKEY_HI and its low half to DKEY_LO. -/
theorem commitDkey_append (hi lo : Word) (s : State) :
    commitDkey (hi ++ lo) s = completedWith .none { s with dkeyHi := hi, dkeyLo := lo } := by
  rw [commitDkey, BitVec.extractLsb'_append_eq_right, BitVec.extractLsb'_append_eq_left]
  rfl

theorem exec_stdEnc_busy {s : State} (h : s.seq.phase = .busy) :
    exec .stdEnc s = .next (completedWith .none { s with block := stdEnc cfg s.block s.key }) := by
  rw [exec, execStdEnc, commandTurn_busy h]
  rfl

theorem exec_stdDec_busy {s : State} (h : s.seq.phase = .busy) :
    exec .stdDec s = .next (completedWith .none { s with block := stdDec cfg s.block s.key }) := by
  rw [exec, execStdDec, commandTurn_busy h]
  rfl

theorem exec_derive_busy {s : State} (h : s.seq.phase = .busy) :
    exec .derive s = .next (completedWith .none
      { s with
        dkeyHi := stdDec cfg (deriveSeedHi s.serial) s.key, dkeyLo := stdDec cfg (deriveSeedLo s.serial) s.key }) := by
  rw [exec, execDerive, commandTurn_busy h, deriveKey, commitDkey_append]

/-- In an Idle block the two halves of KEY may be written in either order. -/
theorem writeReg_key_comm {s : State} (h : s.seq.phase = .idle) (a b : Word) :
    writeReg .keyLo a (writeReg .keyHi b s) = writeReg .keyHi b (writeReg .keyLo a s) := by
  have hdata (r : Reg) (v : Word) : (writeData r v s).seq.phase = .idle := by
    obtain ⟨hseq, -⟩ := writeData_keeps r v s
    rw [hseq, h]
  rw [writeReg_idle (r := .keyHi) (by decide) h b, writeReg_idle (r := .keyLo) (by decide) h a,
    writeReg_idle (by decide) (hdata ..), writeReg_idle (by decide) (hdata ..)]
  rfl

/-! ## The fixed points and the device key -/

theorem stdEnc_zero : stdEnc cfg 0 0 = 0 :=
  congrArg Prod.fst (times_of_fixed (f := encRound (encTaps cfg.stdTapReading)) (by decide) 528)

theorem stdEnc_ones : stdEnc cfg 0xFFFFFFFF 0xFFFFFFFFFFFFFFFF = 0xFFFFFFFF :=
  congrArg Prod.fst (times_of_fixed (f := encRound (encTaps cfg.stdTapReading)) (by decide) 528)

/-- V-STD-1. -/
theorem stdEnc_vector : stdEnc cfg 0xF741E2DB 0x5CEC6701B79FD949 = 0xE44F4CDF := by decide +kernel

/-- V-DRV-1. -/
theorem deriveKey_vector : deriveKey cfg 0x1234567 0x0123456789ABCDEF = 0x0516FBE989074278 := by decide +kernel

/-- Decryption takes the block of a known encryption back. -/
theorem stdDec_of_stdEnc {c : Cfg} {b b' : Word} {k : DWord} (h : stdEnc c b k = b') : stdDec c b' k = b := by
  rw [← h, stdDec_stdEnc]

theorem stdDec_injective (c : Cfg) (k : DWord) : Function.Injective (stdDec c · k) :=
  Function.LeftInverse.injective (g := (stdEnc c · k)) (stdEnc_stdDec c · k)

/-- The seed holds the serial below the two bits that tell the halves apart. -/
theorem setWidth_deriveSeedHi (serial : BitVec 28) : (deriveSeedHi serial).setWidth 28 = serial := by
  rw [deriveSeedHi, BitVec.setWidth_or, BitVec.setWidth_setWidth_of_le _ (by decide), BitVec.setWidth_eq]
  exact BitVec.or_zero

theorem deriveKey_injective (c : Cfg) (mk : DWord) : Function.Injective (deriveKey c · mk) := by
  intro x y h
  have hhi : stdDec c (deriveSeedHi x) mk = stdDec c (deriveSeedHi y) mk := by
    have h' := congrArg (BitVec.extractLsb' 32 32) h
    simpa only [deriveKey, BitVec.extractLsb'_append_eq_left] using h'
  rw [← setWidth_deriveSeedHi x, stdDec_injective c mk hhi, setWidth_deriveSeedHi]

end Sys2Proof.Machine

open Sys2Proof Sys2Proof.Machine

/-- Settles O12: STD_ENC is accepted like every command, and its completion commits StdEnc. -/
theorem stdEncEncryptsBlock : Obligations.StdEncEncryptsBlock :=
  ⟨rfl, fun _ h => exec_idle_accepted (i := .stdEnc) (by decide) (by decide) (by decide) h, fun _ => exec_stdEnc_busy,
    fun _ => illegalVariant_of_ne_encode (i := .stdEnc) (by decide), stdEnc_zero, stdEnc_ones,
    fun _ a b h => writeReg_key_comm h a b, stdEnc_vector⟩

/-- Settles O13: STD_DEC commits StdDec, which takes the fixed points and the example of STD_ENC back. -/
theorem stdDecDecryptsBlock : Obligations.StdDecDecryptsBlock :=
  ⟨rfl, fun _ h => exec_idle_accepted (i := .stdDec) (by decide) (by decide) (by decide) h, fun _ => exec_stdDec_busy,
    fun _ => illegalVariant_of_ne_encode (i := .stdDec) (by decide), stdDec_of_stdEnc stdEnc_zero,
    stdDec_of_stdEnc stdEnc_ones, stdDec_stdEnc cfg, stdDec_of_stdEnc stdEnc_vector⟩

/-- Settles O14: the completion commits the two halves of DeriveKey, whose high half already tells two serials apart. -/
theorem deriveWritesDeviceKey : Obligations.DeriveWritesDeviceKey :=
  ⟨rfl, fun _ h => exec_idle_accepted (i := .derive) (by decide) (by decide) (by decide) h,
    fun _ => exec_derive_busy,
    fun _ _ => append_eq_shiftLeft_or _ _, fun _ => illegalVariant_of_ne_encode (i := .derive) (by decide), rfl, rfl, rfl,
    rfl, fun _ _ mk => (deriveKey_injective cfg mk).ne, deriveKey_vector⟩
end

section
/-! The steps of the ScrambleCipher, bit by bit: the recurrences they follow, why the two directions undo each other, and
why they are the StandardCipher (41_scramble_cipher.md R130 to R135). -/

namespace Sys2Proof.Machine

/-! ## Bits of a byte and of a CipherState -/

theorem getLsbD_bitByte (b : Bool) (i : Nat) : (bitByte b).getLsbD i = (decide (i = 0) && b) := by
  cases i <;> simp [bitByte]

/-- A byte shifted up takes the given bit in below. -/
theorem getLsbD_shiftUp_byte (x : Byte) (f : Bool) {i : Nat} (hi : i < 8) :
    ((x <<< 1) ||| bitByte f).getLsbD i = if i = 0 then f else x.getLsbD (i - 1) := by
  rw [BitVec.getLsbD_or, BitVec.getLsbD_shiftLeft, getLsbD_bitByte]
  cases i <;> simp [hi]

/-- A byte shifted down takes the given bit in above. -/
theorem getLsbD_shiftDown_byte (x : Byte) (f : Bool) {i : Nat} (hi : i < 8) :
    ((x >>> 1) ||| (bitByte f <<< 7)).getLsbD i = if i = 7 then f else x.getLsbD (i + 1) := by
  rw [BitVec.getLsbD_or, BitVec.getLsbD_ushiftRight, BitVec.getLsbD_shiftLeft, getLsbD_bitByte, Nat.add_comm 1 i]
  obtain rfl | hne := eq_or_ne i 7
  · simp
  · simp [hne, show i < 7 by omega]

/-- Bit `b` of state byte `Sj` stands at position `8j + b` of the word (41_scramble_cipher.md R134). -/
theorem getLsbD_unle4 (S : CState) (j : Fin 4) {b : Nat} (hb : b < 8) :
    (unle4 S).getLsbD (8 * j.val + b) = (S.get j).getLsbD b := by
  rw [unle4, getLsbD_wordOfBytes]
  match j with
  | 0 => simp [hb, CState.get]
  | 1 => simp [CState.get, show 8 + b < 16 by omega]
  | 2 => simp [CState.get, show ¬16 + b < 8 by omega, show 16 + b < 24 by omega]
  | 3 => simp [CState.get, show ¬24 + b < 8 by omega, show ¬24 + b < 16 by omega]

theorem tapBit_eq_getLsbD_pos (S : CState) (t : Tap) : tapBit S t = (unle4 S).getLsbD t.pos :=
  (getLsbD_unle4 S t.byte t.bit.isLt).symm

/-- Every position of the word is a bit of a byte. -/
theorem exists_byte_bit {p : Nat} (hp : p < 32) : ∃ (j : Fin 4) (b : Nat), b < 8 ∧ p = 8 * j.val + b :=
  ⟨⟨p / 8, by omega⟩, p % 8, Nat.mod_lt _ (by decide), (Nat.div_add_mod p 8).symm⟩

/-- The left shift of the four registers is one shift of the word: what leaves a byte enters the one above. -/
theorem getLsbD_unle4_shiftUp (S : CState) (f : Bool) {p : Nat} (hp : p < 32) :
    (unle4 (shiftUp S f)).getLsbD p = if p = 0 then f else (unle4 S).getLsbD (p - 1) := by
  have carry (j : Fin 4) : (S.get j).getLsbD 7 = (unle4 S).getLsbD (8 * j.val + 7) := (getLsbD_unle4 S j (by decide)).symm
  obtain ⟨j, b, hb, rfl⟩ := exists_byte_bit hp
  rw [getLsbD_unle4 _ _ hb]
  cases b with
  | zero =>
    match j with
    | 0 => exact getLsbD_shiftUp_byte S.s0 _ hb
    | 1 => exact (getLsbD_shiftUp_byte S.s1 _ hb).trans (carry 0)
    | 2 => exact (getLsbD_shiftUp_byte S.s2 _ hb).trans (carry 1)
    | 3 => exact (getLsbD_shiftUp_byte S.s3 _ hb).trans (carry 2)
  | succ b =>
    rw [if_neg (by omega), ← Nat.add_assoc, Nat.add_sub_cancel, getLsbD_unle4 S j (by omega)]
    match j with
    | 0 | 1 | 2 | 3 => exact getLsbD_shiftUp_byte _ _ hb

/-- The right shift of the four registers is one shift of the word. -/
theorem getLsbD_unle4_shiftDown (S : CState) (f : Bool) {p : Nat} (hp : p < 32) :
    (unle4 (shiftDown S f)).getLsbD p = if p = 31 then f else (unle4 S).getLsbD (p + 1) := by
  have carry (j : Fin 4) : (S.get j).getLsbD 0 = (unle4 S).getLsbD (8 * j.val) := (getLsbD_unle4 S j (by decide)).symm
  obtain ⟨j, b, hb, rfl⟩ := exists_byte_bit hp
  rw [getLsbD_unle4 _ _ hb]
  obtain rfl | hne := eq_or_ne b 7
  · match j with
    | 0 => exact (getLsbD_shiftDown_byte S.s0 _ hb).trans (carry 1)
    | 1 => exact (getLsbD_shiftDown_byte S.s1 _ hb).trans (carry 2)
    | 2 => exact (getLsbD_shiftDown_byte S.s2 _ hb).trans (carry 3)
    | 3 => exact getLsbD_shiftDown_byte S.s3 _ hb
  · rw [if_neg (by omega), Nat.add_assoc, getLsbD_unle4 S j (by omega)]
    match j with
    | 0 | 1 | 2 | 3 => exact (getLsbD_shiftDown_byte _ _ hb).trans (if_neg hne)

/-! ## The schedule -/

section
variable {stp : CState × Byte → CState × Byte} {next : Fin 8 → Fin 8} {T : Table} {p : Nat → Fin 8} {S : Nat → CState}
  {mix : Nat → Byte} {N : Nat}

/-- The outer rounds run through any sequences of states and mix bytes that follow the inner steps and load the mix byte
from the table at each eighth of them. -/
theorem times_outerRound_of_follows (hp : ∀ o, next (p o) = p (o + 1)) (hload : ∀ o < N, mix (8 * o) = T[p o])
    (hmix : ∀ o < N, ∀ i < 7, (stp (S (8 * o + i), mix (8 * o + i))).2 = mix (8 * o + i + 1))
    (hS : ∀ n < 8 * N, (stp (S n, mix n)).1 = S (n + 1)) :
    (times (outerRound stp next T) N (S 0, p 0)).1 = S (8 * N) := by
  have hround : ∀ o < N, outerRound stp next T (S (8 * o), p o) = (S (8 * (o + 1)), p (o + 1)) := by
    intro o ho
    have hinner : times stp 7 (S (8 * o), T[p o]) = (S (8 * o + 7), mix (8 * o + 7)) := by
      rw [← hload o ho]
      exact times_eq_of_follows (x := fun i => (S (8 * o + i), mix (8 * o + i))) fun i hi =>
        Prod.ext (hS _ (by omega)) (hmix o ho i hi)
    refine Prod.ext ?_ (hp o)
    change (stp (times stp 7 (S (8 * o), T[p o]))).1 = _
    rw [hinner]
    exact hS _ (by omega)
  rw [times_eq_of_follows (x := fun o => (S (8 * o), p o)) hround]

end

/-- ShiftLeft ends where 528 steps with the mix bytes of R132 lead. -/
theorem shiftLeft_of_follows {c : Cfg} {T : Table} {S : Nat → CState} {mix : Nat → Byte}
    (hmix : ∀ o < 66, mix (8 * o) = T[(1 + 7 * o) % 8]'(Nat.mod_lt _ (by decide)) ∧
      ∀ i < 7, mix (8 * o + i + 1) = mix (8 * o + i) <<< 1)
    (hS : ∀ n < 528, (leftStep c.scrLeft (S n, mix n)).1 = S (n + 1)) : shiftLeft c (S 0) T = S 528 := by
  refine times_outerRound_of_follows (next := (· - 1)) (p := fun o => ⟨(1 + 7 * o) % 8, Nat.mod_lt _ (by decide)⟩)
    (fun o => ?_) (fun o ho => (hmix o ho).1) (fun o ho i hi => ((hmix o ho).2 i hi).symm) hS
  apply Fin.ext
  simp only [Fin.sub_def]
  omega

/-- ShiftRight ends where 528 steps with the mix bytes of R133 lead. -/
theorem shiftRight_of_follows {c : Cfg} {T : Table} {S : Nat → CState} {mix : Nat → Byte}
    (hmix : ∀ o < 66, mix (8 * o) = T[o % 8]'(Nat.mod_lt _ (by decide)) ∧
      ∀ i < 7, mix (8 * o + i + 1) = mix (8 * o + i) >>> 1)
    (hS : ∀ n < 528, (rightStep c.scrRight (S n, mix n)).1 = S (n + 1)) : shiftRight c (S 0) T = S 528 := by
  refine times_outerRound_of_follows (next := (· + 1)) (p := fun o => ⟨o % 8, Nat.mod_lt _ (by decide)⟩)
    (fun o => ?_) (fun o ho => (hmix o ho).1) (fun o ho i hi => ((hmix o ho).2 i hi).symm) hS
  apply Fin.ext
  simp only [Fin.add_def]
  omega

/-! ## One step as the rules write it -/

/-- The feedback XORs four bits: of the mask, of a byte named, of the other byte and of the mix byte. -/
theorem feedbackBit_eq {t : ScrTaps} {j : Fin 4} {n : Nat} (hbit : t.fbit.val = n) (hj : t.fa = j ∨ t.fb = j) (m : Byte)
    (S : CState) (mix : Byte) :
    feedbackBit t m S mix =
      (m.getLsbD n ^^ (S.get j).getLsbD n ^^ (S.get (t.otherByte j)).getLsbD n ^^ mix.getLsbD n) := by
  simp only [feedbackBit, hbit, BitVec.getLsbD_xor, ScrTaps.otherByte]
  split
  next ha => rw [ha]
  next ha => rw [hj.resolve_left ha, Bool.xor_right_comm (m.getLsbD n)]

theorem maskEntry_eq_ite (mask : Vector Byte 4) (hi lo : Bool) :
    maskEntry mask hi lo = if hi then (if lo then mask[3] else mask[2]) else (if lo then mask[1] else mask[0]) := by
  cases hi <;> cases lo <;> rfl

theorem maskByte_scrLeft (S : CState) : maskByte cfg.scrLeft rotl8 S = leftMaskText S := by
  rw [maskByte, maskEntry_eq_ite]
  rfl

theorem maskByte_scrRight (S : CState) : maskByte cfg.scrRight rotr8 S = rightMaskText S := by
  rw [maskByte, maskEntry_eq_ite]
  rfl

theorem shiftUp_byte_eq {x y : Byte} {f : Bool} (hnew : y.getLsbD 0 = f) (h : ∀ b < 7, y.getLsbD (b + 1) = x.getLsbD b) :
    (x <<< 1) ||| bitByte f = y := by
  refine BitVec.eq_of_getLsbD_eq fun i hi => ?_
  rw [getLsbD_shiftUp_byte x f hi]
  cases i with
  | zero => exact hnew.symm
  | succ i => exact (h i (by omega)).symm

theorem shiftDown_byte_eq {x y : Byte} {f : Bool} (hnew : y.getLsbD 7 = f)
    (h : ∀ b < 7, y.getLsbD b = x.getLsbD (b + 1)) : (x >>> 1) ||| (bitByte f <<< 7) = y := by
  refine BitVec.eq_of_getLsbD_eq fun i hi => ?_
  rw [getLsbD_shiftDown_byte x f hi]
  split
  next h7 => rw [h7, hnew]
  next h7 => exact (h i (by omega)).symm

/-- A step of R132 is known by its new bit, its carries and the bits moved up. -/
theorem leftStep_of_isLeftStep {mix : Byte} {s t : CState} (h : IsLeftStep mix s t) :
    (leftStep cfg.scrLeft (s, mix)).1 = t := by
  obtain ⟨hnew, h1, h2, h3, hbits⟩ := h
  have hfeedback : feedbackBit cfg.scrLeft (maskByte cfg.scrLeft rotl8 s) s mix = t.s0.getLsbD 0 := by
    rw [hnew, maskByte_scrLeft, feedbackBit_eq (j := 1) (n := 7) rfl (.inl rfl)]
    rfl
  simp only [imp_and, forall_and] at hbits
  obtain ⟨hb0, hb1, hb2, hb3⟩ := hbits
  rw [leftStep, hfeedback]
  exact (CState.mk.injEq ..).mpr
    ⟨shiftUp_byte_eq rfl hb0, shiftUp_byte_eq h1 hb1, shiftUp_byte_eq h2 hb2, shiftUp_byte_eq h3 hb3⟩

/-- A step of R133 is known by its new bit, its carries and the bits moved down. -/
theorem rightStep_of_isRightStep {mix : Byte} {s t : CState} (h : IsRightStep mix s t) :
    (rightStep cfg.scrRight (s, mix)).1 = t := by
  obtain ⟨hnew, h0, h1, h2, hbits⟩ := h
  have hfeedback : feedbackBit cfg.scrRight (maskByte cfg.scrRight rotr8 s) s mix = t.s3.getLsbD 7 := by
    rw [hnew, maskByte_scrRight, feedbackBit_eq (j := 0) (n := 0) rfl (.inl rfl)]
    rfl
  simp only [imp_and, forall_and] at hbits
  obtain ⟨hb0, hb1, hb2, hb3⟩ := hbits
  rw [rightStep, hfeedback]
  exact (CState.mk.injEq ..).mpr
    ⟨shiftDown_byte_eq h0 hb0, shiftDown_byte_eq h1 hb1, shiftDown_byte_eq h2 hb2, shiftDown_byte_eq rfl hb3⟩

/-! ## The directions undo each other -/

theorem reverse_or {w : Nat} (x y : BitVec w) : (x ||| y).reverse = x.reverse ||| y.reverse := by
  refine BitVec.eq_of_getLsbD_eq fun i hi => ?_
  simp only [BitVec.getLsbD_reverse, BitVec.getMsbD_or, BitVec.getLsbD_or]

theorem reverse_shiftLeft {w : Nat} (x : BitVec w) (n : Nat) : (x <<< n).reverse = x.reverse >>> n := by
  refine BitVec.eq_of_getLsbD_eq fun i hi => ?_
  simp only [BitVec.getLsbD_reverse, BitVec.getMsbD_shiftLeft, BitVec.getLsbD_ushiftRight, Nat.add_comm]

theorem reverse_ushiftRight {w : Nat} (x : BitVec w) (n : Nat) : (x >>> n).reverse = x.reverse <<< n := by
  refine BitVec.eq_of_getLsbD_eq fun i hi => ?_
  simp only [BitVec.getLsbD_reverse, BitVec.getMsbD_ushiftRight, BitVec.getLsbD_shiftLeft, hi, decide_true, Bool.true_and]

theorem reverse_rotr8 (v : Byte) (n : Nat) : (rotr8 v n).reverse = rotl8 v.reverse n := by
  rw [rotr8, reverse_or, reverse_ushiftRight, reverse_shiftLeft, rotl8]

/-- A position of the word moves one down with a right step. -/
theorem tapBit_shiftDown {l r : Tap} (h : l.pos + 1 = r.pos) (S : CState) (f : Bool) :
    tapBit (shiftDown S f) l = tapBit S r := by
  have hr : r.pos < 32 := by unfold Tap.pos; omega
  rw [tapBit_eq_getLsbD_pos, getLsbD_unle4_shiftDown S f (by omega), if_neg (by omega), h, ← tapBit_eq_getLsbD_pos]

theorem times_rightStep_mix (t : ScrTaps) (n : Nat) (S : CState) (m : Byte) :
    (times (rightStep t) n (S, m)).2 = m >>> n := by
  induction n with
  | zero => exact (BitVec.ushiftRight_zero m).symm
  | succ n ih => rw [BitVec.shiftRight_add, ← ih]; rfl

section
variable {l r : ScrTaps} (h : l.invertible r = true)
include h

theorem invertible_taps : l.hi.pos + 1 = r.hi.pos ∧ l.lo.pos + 1 = r.lo.pos ∧ l.r4.pos + 1 = r.r4.pos ∧
    l.r2.pos + 1 = r.r2.pos ∧ l.r1.pos + 1 = r.r1.pos := by
  simp only [ScrTaps.invertible, Bool.and_eq_true] at h
  obtain ⟨⟨⟨⟨⟨h1, -⟩, -⟩, -⟩, -⟩, -⟩ := h
  simpa [tapsOneBelow, ScrTaps.taps] using h1

theorem invertible_masks : l.mask[0] = r.mask[0].reverse ∧ l.mask[1] = r.mask[1].reverse ∧
    l.mask[2] = r.mask[2].reverse ∧ l.mask[3] = r.mask[3].reverse := by
  simp only [ScrTaps.invertible, Bool.and_eq_true] at h
  obtain ⟨-, h6⟩ := h
  simpa [masksReversed, ScrTaps.masks] using h6

/-- After a right step the left direction's mask is the right one's, bit-reversed (R134, constraints 1 and 6). -/
theorem maskByte_shiftDown (S : CState) (f : Bool) :
    maskByte l rotl8 (shiftDown S f) = (maskByte r rotr8 S).reverse := by
  obtain ⟨hhi, hlo, h4, h2, h1⟩ := invertible_taps h
  obtain ⟨m0, m1, m2, m3⟩ := invertible_masks h
  simp only [maskByte, maskEntry_eq_ite, tapBit_shiftDown hhi, tapBit_shiftDown hlo, tapBit_shiftDown h4,
    tapBit_shiftDown h2, tapBit_shiftDown h1, m0, m1, m2, m3, ← reverse_rotr8, ← apply_ite BitVec.reverse]

/-- The feedback bits and the XORed bytes (R134, constraints 3 to 5). -/
theorem invertible_feedback : r.fbit.val = 0 ∧ (r.fa = 0 ∨ r.fb = 0) ∧ l.fbit.val = 7 ∧ (l.fa = 3 ∨ l.fb = 3) ∧
    8 * (l.otherByte 3).val + 7 + 1 = 8 * (r.otherByte 0).val := by
  simp only [ScrTaps.invertible, Bool.and_eq_true] at h
  obtain ⟨⟨⟨⟨-, h3⟩, h4⟩, h5⟩, -⟩ := h
  simp only [rightLinearAtZero, leftLinearAtTop, otherBytesPair, Bool.and_eq_true, Bool.or_eq_true, beq_iff_eq]
    at h3 h4 h5
  obtain ⟨hrbit, hr⟩ := h3
  obtain ⟨hlbit, hl⟩ := h4
  exact ⟨congrArg Fin.val hrbit, hr, congrArg Fin.val hlbit, hl, h5⟩

/-- Out of the feedback of a right step the left step gets back the bit that has been shifted out. -/
theorem feedbackBit_shiftDown (S : CState) {m m' : Byte} (hm : m'.getLsbD 7 = m.getLsbD 0) {f : Bool}
    (hf : f = feedbackBit r (maskByte r rotr8 S) S m) :
    feedbackBit l (maskByte l rotl8 (shiftDown S f)) (shiftDown S f) m' = (unle4 S).getLsbD 0 := by
  obtain ⟨hr, hr0, hl, hl3, hother⟩ := invertible_feedback h
  have htop : ((shiftDown S f).get 3).getLsbD 7 = f :=
    (getLsbD_unle4 _ 3 (by decide)).symm.trans (getLsbD_unle4_shiftDown S f (by decide))
  have hpair : ((shiftDown S f).get (l.otherByte 3)).getLsbD 7 = (S.get (r.otherByte 0)).getLsbD 0 := by
    have hbyte := (r.otherByte 0).isLt
    rw [← getLsbD_unle4 _ _ (b := 7) (by decide), getLsbD_unle4_shiftDown S f (by omega), if_neg (by omega), hother]
    exact getLsbD_unle4 S _ (b := 0) (by decide)
  have hmask : (maskByte l rotl8 (shiftDown S f)).getLsbD 7 = (maskByte r rotr8 S).getLsbD 0 := by
    rw [maskByte_shiftDown h, BitVec.getLsbD_reverse]
    rfl
  have cancel : ∀ n b0 b k : Bool, (n ^^ (n ^^ b0 ^^ b ^^ k) ^^ b ^^ k) = b0 := by decide
  calc feedbackBit l (maskByte l rotl8 (shiftDown S f)) (shiftDown S f) m'
      = ((maskByte r rotr8 S).getLsbD 0 ^^ f ^^ (S.get (r.otherByte 0)).getLsbD 0 ^^ m.getLsbD 0) := by
        rw [feedbackBit_eq hl hl3, hmask, htop, hpair, hm]
    _ = (S.get 0).getLsbD 0 := by
        rw [hf, feedbackBit_eq hr hr0]
        exact cancel ..
    _ = (unle4 S).getLsbD 0 := (getLsbD_unle4 S 0 (b := 0) (by decide)).symm

/-- A left step undoes a right step under the same key bit (R134). -/
theorem leftStep_rightStep (S : CState) {m m' : Byte} (hm : m'.getLsbD 7 = m.getLsbD 0) :
    (leftStep l ((rightStep r (S, m)).1, m')).1 = S := by
  refine unle4_injective (BitVec.eq_of_getLsbD_eq fun p hp => ?_)
  rw [leftStep, getLsbD_unle4_shiftUp _ _ hp]
  split
  next h0 => rw [h0]; exact feedbackBit_shiftDown h S hm rfl
  next h0 =>
    rw [rightStep, getLsbD_unle4_shiftDown _ _ (by omega), if_neg (by omega), Nat.sub_add_cancel (by omega)]

/-- The left direction reads the mix byte from its other end: it undoes the inner steps in reverse. -/
theorem times_leftStep_undoes {n : Nat} (hn : n ≤ 8) (S : CState) (m : Byte) :
    (times (leftStep l) n ((times (rightStep r) n (S, m)).1, m <<< (8 - n))).1 = S := by
  induction n with
  | zero => rfl
  | succ n ih =>
    have hbit : (m <<< (8 - (n + 1))).getLsbD 7 = (times (rightStep r) n (S, m)).2.getLsbD 0 := by
      rw [times_rightStep_mix, BitVec.getLsbD_shiftLeft, BitVec.getLsbD_ushiftRight,
        show 7 - (8 - (n + 1)) = n + 0 by omega]
      simp
    have hmix : m <<< (8 - (n + 1)) <<< 1 = m <<< (8 - n) := by
      rw [← BitVec.shiftLeft_add, show 8 - (n + 1) + 1 = 8 - n by omega]
    have hstep : leftStep l ((times (rightStep r) (n + 1) (S, m)).1, m <<< (8 - (n + 1))) =
        ((times (rightStep r) n (S, m)).1, m <<< (8 - n)) :=
      Prod.ext (leftStep_rightStep h _ hbit) hmix
    rw [times_succ_apply, hstep, ih (by omega)]

end

/-- Under constraints 1 to 6 a left round undoes the right round that read the same entry of the table. -/
theorem leftOuter_rightOuter {l r : ScrTaps} (h : l.invertible r = true) (T : Table) (x : CState × Fin 8) :
    leftOuter l T ((rightOuter r T x).1, (rightOuter r T x).2 - 1) = (x.1, x.2 - 1) := by
  have hindex : (rightOuter r T x).2 - 1 = x.2 := add_sub_cancel_right x.2 1
  have hstate : (times (leftStep l) 8 ((rightOuter r T x).1, T[x.2])).1 = x.1 := by
    have h8 := times_leftStep_undoes h le_rfl x.1 T[x.2]
    rwa [Nat.sub_self, BitVec.shiftLeft_zero] at h8
  rw [hindex]
  exact Prod.ext hstate rfl

/-- The index moves whatever the state holds. -/
theorem times_rightOuter_index (t : ScrTaps) (T : Table) (n : Nat) (x : CState × Fin 8) :
    (times (rightOuter t T) n x).2 = times (· + 1) n x.2 := by
  induction n with
  | zero => rfl
  | succ n ih => exact congrArg (· + 1) ih

/-- 66 right rounds leave the index at 2; the left direction starts at the entry they have read last (R134,
constraint 7). -/
theorem shiftLeft_shiftRight {c : Cfg} (h : c.scrLeft.invertible c.scrRight = true) (S : CState) (T : Table) :
    shiftLeft c (shiftRight c S T) T = S := by
  have hindex : (times (rightOuter c.scrRight T) 66 (S, 0)).2 - 1 = 1 := by
    rw [times_rightOuter_index]
    rfl
  have hundo := times_undoes (φ := fun x => (x.1, x.2 - 1)) (leftOuter_rightOuter h T) 66 (S, 0)
  rw [hindex] at hundo
  exact congrArg Prod.fst hundo

/-- On the finite set of states the left inverse is the right inverse too. -/
theorem shiftRight_shiftLeft {c : Cfg} (h : c.scrLeft.invertible c.scrRight = true) (S : CState) (T : Table) :
    shiftRight c (shiftLeft c S T) T = S := by
  have hfinite : Finite CState := Finite.of_injective unle4 fun _ _ => unle4_injective
  have hinv : Function.LeftInverse (shiftLeft c · T) (shiftRight c · T) := (shiftLeft_shiftRight h · T)
  exact hinv.rightInverse_of_surjective (Finite.surjective_of_injective hinv.injective) S

theorem cfg_invertible : cfg.scrLeft.invertible cfg.scrRight = true := by decide

/-! ## The StandardCipher -/

theorem getLsbD_append_byte_low {w : Nat} (x : BitVec w) (y : Byte) {b : Nat} (hb : b < 8) :
    (x ++ y).getLsbD b = y.getLsbD b := by
  rw [BitVec.getLsbD_append, if_pos hb]

theorem getLsbD_append_byte_high {w : Nat} (x : BitVec w) (y : Byte) (j b : Nat) :
    (x ++ y).getLsbD (8 * (j + 1) + b) = x.getLsbD (8 * j + b) := by
  rw [BitVec.getLsbD_append, if_neg (by omega)]
  congr 1
  omega

/-- Bit `b` of table byte `T[j]` stands at position `8j + b` of the key (00_scope.md R12). -/
theorem getLsbD_unle8 (T : Table) {j b : Nat} (hj : j < 8) (hb : b < 8) :
    (unle8 T).getLsbD (8 * j + b) = T[j].getLsbD b := by
  match j, hj with
  | 0, _ | 1, _ | 2, _ | 3, _ | 4, _ | 5, _ | 6, _ | 7, _ =>
    simp only [unle8, getLsbD_append_byte_high, getLsbD_append_byte_low _ _ hb, Nat.mul_zero, Nat.zero_add]

/-- The mask byte by its five bits. -/
def maskOfBits (mask : Vector Byte 4) (rot : Byte → Nat → Byte) (hi lo r4 r2 r1 : Bool) : Byte :=
  let m := maskEntry mask hi lo
  let m := if r4 then rot m 4 else m
  let m := if r2 then rot m 2 else m
  if r1 then rot m 1 else m

theorem maskByte_eq_maskOfBits (t : ScrTaps) (rot : Byte → Nat → Byte) (S : CState) :
    maskByte t rot S =
      maskOfBits t.mask rot (tapBit S t.hi) (tapBit S t.lo) (tapBit S t.r4) (tapBit S t.r2) (tapBit S t.r1) := rfl

/-- Either direction's mask table and rotations are the 32-bit table of the StandardCipher, cut into bytes (R135). -/
theorem maskOfBits_eq_nlf : ∀ hi lo r4 r2 r1 : Bool,
    (maskOfBits cfg.scrRight.mask rotr8 hi lo r4 r2 r1).getLsbD 0 =
        nlf (BitVec.ofBool hi ++ BitVec.ofBool lo ++ BitVec.ofBool r4 ++ BitVec.ofBool r2 ++ BitVec.ofBool r1) ∧
      (maskOfBits cfg.scrLeft.mask rotl8 hi lo r4 r2 r1).getLsbD 7 =
        nlf (BitVec.ofBool hi ++ BitVec.ofBool lo ++ BitVec.ofBool r4 ++ BitVec.ofBool r2 ++ BitVec.ofBool r1) := by
  decide

theorem maskByte_right_eq_nlf (S : CState) :
    (maskByte cfg.scrRight rotr8 S).getLsbD 0 = nlf (tapIndex (unle4 S) (encTaps cfg.stdTapReading)) := by
  rw [maskByte_eq_maskOfBits, (maskOfBits_eq_nlf ..).1]
  simp only [tapBit_eq_getLsbD_pos]
  rfl

theorem maskByte_left_eq_nlf (S : CState) :
    (maskByte cfg.scrLeft rotl8 S).getLsbD 7 = nlf (tapIndex (unle4 S) (decTaps cfg.stdTapReading)) := by
  rw [maskByte_eq_maskOfBits, (maskOfBits_eq_nlf ..).2]
  simp only [tapBit_eq_getLsbD_pos]
  rfl

/-- A right step is an encrypt round whose key bit is the mix bit. -/
theorem unle4_rightStep (S : CState) {mix : Byte} {k : DWord} (hk : mix.getLsbD 0 = k.getLsbD 0) :
    unle4 (rightStep cfg.scrRight (S, mix)).1 = (encRound (encTaps cfg.stdTapReading) (unle4 S, k)).1 := by
  have hfeedback : feedbackBit cfg.scrRight (maskByte cfg.scrRight rotr8 S) S mix =
      encFeedback (encTaps cfg.stdTapReading) (unle4 S) k := by
    rw [feedbackBit_eq (j := 0) (n := 0) rfl (.inl rfl), maskByte_right_eq_nlf, ← getLsbD_unle4 S 0 (b := 0) (by decide),
      ← getLsbD_unle4 S _ (b := 0) (by decide), hk]
    rfl
  refine BitVec.eq_of_getLsbD_eq fun p hp => ?_
  rw [rightStep, getLsbD_unle4_shiftDown _ _ hp, getLsbD_encRound _ _ hp, hfeedback]

/-- A left step is a decrypt round whose key bit is the mix bit. -/
theorem unle4_leftStep (S : CState) {mix : Byte} {k : DWord} (hk : mix.getLsbD 7 = k.getLsbD 15) :
    unle4 (leftStep cfg.scrLeft (S, mix)).1 = (decRound (decTaps cfg.stdTapReading) (unle4 S, k)).1 := by
  have hfeedback : feedbackBit cfg.scrLeft (maskByte cfg.scrLeft rotl8 S) S mix =
      decFeedback (decTaps cfg.stdTapReading) (unle4 S) k := by
    rw [feedbackBit_eq (j := 3) (n := 7) rfl (.inr rfl), maskByte_left_eq_nlf, ← getLsbD_unle4 S 3 (b := 7) (by decide),
      ← getLsbD_unle4 S _ (b := 7) (by decide), hk]
    rfl
  refine BitVec.eq_of_getLsbD_eq fun p hp => ?_
  rw [leftStep, getLsbD_unle4_shiftUp _ _ hp, getLsbD_decRound _ _ hp, hfeedback]

/-- The mix byte of step `n` of ShiftRight (R133). -/
def rightMix (T : Table) (n : Nat) : Byte := T[n / 8 % 8]'(Nat.mod_lt _ (by decide)) >>> (n % 8)

/-- The mix byte of step `n` of ShiftLeft (R132). -/
def leftMix (T : Table) (n : Nat) : Byte := T[(1 + 7 * (n / 8)) % 8]'(Nat.mod_lt _ (by decide)) <<< (n % 8)

theorem rightMix_at (T : Table) (o : Nat) {i : Nat} (hi : i < 8) :
    rightMix T (8 * o + i) = T[o % 8]'(Nat.mod_lt _ (by decide)) >>> i := by
  simp only [rightMix, show (8 * o + i) / 8 = o by omega, show (8 * o + i) % 8 = i by omega]

theorem rightMix_start (T : Table) (o : Nat) : rightMix T (8 * o) = T[o % 8]'(Nat.mod_lt _ (by decide)) :=
  (rightMix_at T o (i := 0) (by decide)).trans (BitVec.ushiftRight_zero _)

theorem leftMix_at (T : Table) (o : Nat) {i : Nat} (hi : i < 8) :
    leftMix T (8 * o + i) = T[(1 + 7 * o) % 8]'(Nat.mod_lt _ (by decide)) <<< i := by
  simp only [leftMix, show (8 * o + i) / 8 = o by omega, show (8 * o + i) % 8 = i by omega]

theorem leftMix_start (T : Table) (o : Nat) : leftMix T (8 * o) = T[(1 + 7 * o) % 8]'(Nat.mod_lt _ (by decide)) :=
  (leftMix_at T o (i := 0) (by decide)).trans (BitVec.shiftLeft_zero _)

/-- The mix bit of right step `n` is the key bit of encrypt round `n` (R134, constraint 7). -/
theorem rightMix_bit (T : Table) (n : Nat) (t : StdTaps) (b : Word) :
    (rightMix T n).getLsbD 0 = (times (encRound t) n (b, unle8 T)).2.getLsbD 0 := by
  have hbit := getLsbD_unle8 T (j := n / 8 % 8) (b := n % 8) (Nat.mod_lt _ (by decide)) (Nat.mod_lt _ (by decide))
  rw [times_encRound_key, getLsbD_rotateRight_key _ _ (by decide), rightMix, BitVec.getLsbD_ushiftRight,
    show (0 + n) % 64 = 8 * (n / 8 % 8) + n % 8 by omega]
  exact hbit.symm

theorem leftMix_bit (T : Table) (n : Nat) (t : StdTaps) (b : Word) :
    (leftMix T n).getLsbD 7 = (times (decRound t) n (b, unle8 T)).2.getLsbD 15 := by
  have hbit := getLsbD_unle8 T (j := (1 + 7 * (n / 8)) % 8) (b := 7 - n % 8) (Nat.mod_lt _ (by decide)) (by omega)
  have hlow : ¬7 < n % 8 := by omega
  rw [times_decRound_key, getLsbD_rotateLeft_key _ _ (by decide), leftMix, BitVec.getLsbD_shiftLeft, decide_eq_false hlow,
    show (15 + (64 - n % 64)) % 64 = 8 * ((1 + 7 * (n / 8)) % 8) + (7 - n % 8) by omega]
  exact hbit.symm

/-- At the defaults ShiftRight is StdEnc, step for round (R135). -/
theorem shiftRight_eq_stdEnc (S : CState) (T : Table) : shiftRight cfg S T = le4 (stdEnc cfg (unle4 S) (unle8 T)) := by
  refine (congrArg (shiftRight cfg · T) (le4_unle4 S).symm).trans (shiftRight_of_follows (mix := rightMix T)
    (S := fun n => le4 (times (encRound (encTaps cfg.stdTapReading)) n (unle4 S, unle8 T)).1)
    (fun o _ => ⟨rightMix_start T o, fun i hi => ?_⟩) fun n _ => unle4_injective ?_)
  · rw [Nat.add_assoc, rightMix_at T o (by omega), rightMix_at T o (by omega), BitVec.shiftRight_add]
  · rw [unle4_rightStep _ (rightMix_bit T n (encTaps cfg.stdTapReading) (unle4 S)), unle4_le4, unle4_le4]
    rfl

/-- At the defaults ShiftLeft is StdDec, step for round (R135). -/
theorem shiftLeft_eq_stdDec (S : CState) (T : Table) : shiftLeft cfg S T = le4 (stdDec cfg (unle4 S) (unle8 T)) := by
  refine (congrArg (shiftLeft cfg · T) (le4_unle4 S).symm).trans (shiftLeft_of_follows (mix := leftMix T)
    (S := fun n => le4 (times (decRound (decTaps cfg.stdTapReading)) n (unle4 S, unle8 T)).1)
    (fun o _ => ⟨leftMix_start T o, fun i hi => ?_⟩) fun n _ => unle4_injective ?_)
  · rw [Nat.add_assoc, leftMix_at T o (by omega), leftMix_at T o (by omega), BitVec.shiftLeft_add]
  · rw [unle4_leftStep _ (leftMix_bit T n (decTaps cfg.stdTapReading) (unle4 S)), unle4_le4, unle4_le4]
    rfl

end Sys2Proof.Machine

open Sys2Proof Sys2Proof.Machine

/-- Settles O28: the sequences follow the left step, whose bits are the rule's. -/
theorem shiftLeftIsTheStatedRecurrence : Obligations.ShiftLeftIsTheStatedRecurrence :=
  fun _ _ _ hmix hstep => shiftLeft_of_follows hmix fun n hn => leftStep_of_isLeftStep (hstep n hn)

/-- Settles O29: the sequences follow the right step, whose bits are the rule's. -/
theorem shiftRightIsTheStatedRecurrence : Obligations.ShiftRightIsTheStatedRecurrence :=
  fun _ _ _ hmix hstep => shiftRight_of_follows hmix fun n hn => rightStep_of_isRightStep (hstep n hn)

/-- Settles O30: each left round undoes a right round, and there are 2^32 states. -/
theorem scrambleDirectionsAreInverse : Obligations.ScrambleDirectionsAreInverse :=
  ⟨fun _ S T h => ⟨shiftLeft_shiftRight h S T, shiftRight_shiftLeft h S T⟩, cfg_invertible⟩

/-- Settles O31: each step is a round of the StandardCipher under the same key bit. -/
theorem scrambleEqualsStandardCipher : Obligations.ScrambleEqualsStandardCipher :=
  fun S T => ⟨shiftRight_eq_stdEnc S T, shiftLeft_eq_stdDec S T⟩
end

section
/-! The plaintext seed, the redundancy check and the round trip of a payload (41_scramble_cipher.md R136 to R143). -/

namespace Sys2Proof.Machine

/-! ## The seed as a word -/

/-- Four bytes in a word, the lower two together, each shifted to its place. -/
theorem wordOfBytes_eq_or (b0 b1 b2 b3 : Byte) :
    wordOfBytes b0 b1 b2 b3 = (b1 ++ b0).setWidth 32 ||| (b2.setWidth 32 <<< 16) ||| (b3.setWidth 32 <<< 24) := by
  have place {m n : Nat} (x : BitVec m) (y : BitVec n) : (x ++ y).setWidth 32 = (x.setWidth 32 <<< n) ||| y.setWidth 32 :=
    BitVec.setWidth_append_eq_shiftLeft_setWidth_or
  have hword : wordOfBytes b0 b1 b2 b3 = (b3 ++ (b2 ++ (b1 ++ b0))).setWidth 32 := by
    rw [BitVec.setWidth_eq, wordOfBytes, BitVec.append_assoc, BitVec.append_assoc]
    rfl
  rw [hword, place, place b2, BitVec.or_comm, BitVec.or_comm (BitVec.setWidth 32 b2 <<< _)]

/-- The seed's byte 2 is what the low byte of the serial keeps of a shift by 6. -/
theorem setWidth_serialByte_shiftLeft (serial : BitVec 28) :
    (serial.extractLsb' 0 8 <<< 6).setWidth 32 = (serial.setWidth 32 <<< 6) &&& 0xFF := by
  have hlow : (serial.setWidth 32 <<< 6).setWidth 8 = serial.extractLsb' 0 8 <<< 6 := by
    rw [BitVec.setWidth_shiftLeft_of_le (by omega), BitVec.setWidth_setWidth_of_le _ (by omega),
      BitVec.setWidth_eq_extractLsb' (by omega)]
  rw [← hlow]
  exact setWidth_setWidth_eq_and (by omega) _

/-- The low bits of the seed's byte 3 are serial bits 3:2. -/
theorem setWidth_serialByte_shiftRight (serial : BitVec 28) :
    ((serial.extractLsb' 0 8 &&& 0x0C) >>> 2).setWidth 32 = (serial.setWidth 32 >>> 2) &&& 0x03 := by
  have hmask : (0x0C : Byte) >>> 2 = 0x03 := rfl
  have hlow : (serial.setWidth 32 >>> 2).setWidth 2 = ((serial.extractLsb' 0 8 >>> 2).setWidth 32).setWidth 2 := by
    refine BitVec.eq_of_getLsbD_eq fun i hi => ?_
    simp [hi, show 2 + i < 8 by omega]
  rw [BitVec.ushiftRight_and_distrib, hmask, BitVec.setWidth_and]
  refine (setWidth_setWidth_eq_and (n := 2) (by omega) _).symm.trans ?_
  rw [← hlow]
  exact setWidth_setWidth_eq_and (by omega) _

theorem append_bytes_of_counter (counter : BitVec 16) : counter.extractLsb' 8 8 ++ counter.extractLsb' 0 8 = counter :=
  (BitVec.extractLsb'_append_extractLsb'_eq_extractLsb' rfl).trans BitVec.extractLsb'_eq_self

theorem unle4_ptSeed (serial : BitVec 28) (counter : BitVec 16) (button : Byte) :
    unle4 (ptSeed (serial.extractLsb' 0 8) counter button) =
      counter.setWidth 32 ||| (((serial.setWidth 32 <<< 6) &&& 0xFF) <<< 16) |||
        ((((button &&& 0xF0).setWidth 32) ||| ((serial.setWidth 32 >>> 2) &&& 0x03)) <<< 24) := by
  rw [unle4, ptSeed, wordOfBytes_eq_or, append_bytes_of_counter, BitVec.setWidth_or, setWidth_serialByte_shiftLeft,
    setWidth_serialByte_shiftRight]
  rfl

/-! ## The redundancy check -/

theorem integrityOk_iff {ser0 : Byte} {D : CState} :
    integrityOk ser0 D = true ↔ D.s2 = ser0 <<< 6 ∧ D.s3 &&& 0x03 = (ser0 >>> 2) &&& 0x03 := by
  simp only [integrityOk, Bool.and_eq_true, beq_iff_eq]

/-- Two bits of the serial byte stand at the top of D2, and zeros below (R142). -/
theorem eq_shiftLeft_six_iff {x y : Byte} :
    x = y <<< 6 ↔ (∀ b < 6, x.getLsbD b = false) ∧ x.getLsbD 6 = y.getLsbD 0 ∧ x.getLsbD 7 = y.getLsbD 1 := by
  constructor
  · rintro rfl
    exact ⟨fun b hb => by simp [hb], by simp, by simp⟩
  · rintro ⟨hlow, h6, h7⟩
    refine BitVec.eq_of_getLsbD_eq fun i hi => ?_
    rw [BitVec.getLsbD_shiftLeft]
    by_cases h : i < 6
    · simp [h, hlow i h]
    · obtain rfl | rfl : i = 6 ∨ i = 7 := by omega
      · simpa using h6
      · simpa using h7

/-- The two low bits of a byte, as a word of their own. -/
theorem extractLsb'_two_eq_iff {x y : Byte} :
    x.extractLsb' 0 2 = y.extractLsb' 0 2 ↔ x.getLsbD 0 = y.getLsbD 0 ∧ x.getLsbD 1 = y.getLsbD 1 := by
  rw [BitVec.eq_of_getLsbD_eq_iff, Nat.forall_lt_succ_right, Nat.forall_lt_succ_right]
  simp

/-- A mask of 3 keeps the two low bits. -/
theorem and_three_eq_iff {x y : Byte} : x &&& 0x03 = y &&& 0x03 ↔ x.extractLsb' 0 2 = y.extractLsb' 0 2 := by
  have hmask : ∀ z : Byte, z &&& 0x03 = (z.extractLsb' 0 2).setWidth 8 := by decide
  rw [hmask, hmask y]
  refine ⟨fun h => ?_, congrArg _⟩
  have hlow := congrArg (BitVec.setWidth 2) h
  rwa [BitVec.setWidth_setWidth_of_le _ (by decide), BitVec.setWidth_setWidth_of_le _ (by decide), BitVec.setWidth_eq,
    BitVec.setWidth_eq] at hlow

/-- The check by its ten bits (R142). -/
theorem integrityOk_iff_bits {ser0 : Byte} {D : CState} :
    integrityOk ser0 D = true ↔
      (∀ b < 6, D.s2.getLsbD b = false) ∧ D.s2.getLsbD 6 = ser0.getLsbD 0 ∧ D.s2.getLsbD 7 = ser0.getLsbD 1 ∧
        D.s3.getLsbD 0 = ser0.getLsbD 2 ∧ D.s3.getLsbD 1 = ser0.getLsbD 3 := by
  refine integrityOk_iff.trans ((and_congr eq_shiftLeft_six_iff (and_three_eq_iff.trans extractLsb'_two_eq_iff)).trans ?_)
  rw [BitVec.getLsbD_ushiftRight, BitVec.getLsbD_ushiftRight, and_assoc, and_assoc]

/-! ## The round trip -/

/-- Under KT_FILL_UPPER = copy the two halves of the key table are equal (R136). -/
theorem ktHalf_fillKT_copy (a b : CState) :
    ktHalf (fillKT cfg a b) cfg.ktHalfR = ktHalf (fillKT cfg a b) cfg.ktHalfL := rfl

/-- The seed stands in the check's bits as the check asks (R138, R141). -/
theorem integrityOk_ptSeed (ser0 : Byte) (counter : BitVec 16) (button : Byte) :
    integrityOk ser0 (ptSeed ser0 counter button) = true := by
  have hbutton : button &&& (0xF0 : Byte) &&& (0x03 : Byte) = 0#8 := by
    rw [BitVec.and_assoc]
    exact BitVec.and_zero
  have hserial : ∀ s : Byte, (s &&& (0x0C : Byte)) >>> 2 &&& (0x03 : Byte) = s >>> 2 &&& (0x03 : Byte) := by decide
  refine integrityOk_iff.2 ⟨rfl, ?_⟩
  change (button &&& (0xF0 : Byte) ||| (ser0 &&& (0x0C : Byte)) >>> 2) &&& (0x03 : Byte) = ser0 >>> 2 &&& (0x03 : Byte)
  rw [BitVec.and_or_distrib_right, hbutton, hserial, BitVec.zero_or]

/-- The seed gives the counter and the button's high nibble back (R141). -/
theorem decodedOf_ptSeed (ser0 : Byte) (kt : KeyTable) (counter : BitVec 16) (button : Byte) :
    decodedOf ser0 kt (ptSeed ser0 counter button) =
      { kt := kt, plain := ptSeed ser0 counter button, ok := true, counter := counter, button := button &&& 0xF0 } := by
  have hbutton : button &&& (0xF0 : Byte) &&& (0xF0 : Byte) = button &&& (0xF0 : Byte) := by
    rw [BitVec.and_assoc, BitVec.and_self]
  have hserial : ∀ s : Byte, (s &&& (0x0C : Byte)) >>> 2 &&& (0xF0 : Byte) = 0#8 := by decide
  have hnibble : (button &&& (0xF0 : Byte) ||| (ser0 &&& (0x0C : Byte)) >>> 2) &&& (0xF0 : Byte) =
      button &&& (0xF0 : Byte) := by
    rw [BitVec.and_or_distrib_right, hbutton, hserial, BitVec.or_zero]
  rw [decodedOf, integrityOk_ptSeed, Decoded.mk.injEq]
  exact ⟨rfl, rfl, rfl, append_bytes_of_counter counter, hnibble⟩

/-- Decryption under the table of the encryption gives the seed back (R143). -/
theorem decPayload_encPayload (ser : SerialBytes) (counter : BitVec 16) (button : Byte) (DK : Table) :
    decPayload cfg ser (unle4 (encPayload cfg ser counter button DK).2) DK =
      decodedOf ser.ser0 (expandKT cfg ser DK) (ptSeed ser.ser0 counter button) := by
  rw [decPayload, encPayload, le4_unle4]
  simp only [expandKT, ktHalf_fillKT_copy]
  rw [shiftLeft_shiftRight cfg_invertible]

end Sys2Proof.Machine

open Sys2Proof Sys2Proof.Machine

/-- Settles O32: the seed's bytes are the fields of the plaintext word. -/
theorem plaintextSeedIsTheStatedWord : Obligations.PlaintextSeedIsTheStatedWord := unle4_ptSeed

/-- Settles O33: the check compares one byte and two bits with what the serial byte fixes. -/
theorem integrityCheckTestsTenBits : Obligations.IntegrityCheckTestsTenBits :=
  ⟨fun _ _ => integrityOk_iff_bits, fun ser0 => ⟨ser0 <<< 6, (ser0 >>> 2).extractLsb' 0 2, fun _ =>
    integrityOk_iff.trans (and_congr_right' and_three_eq_iff)⟩⟩

/-- Settles O34: the decryption gives the seed back, which passes the check and holds both values. -/
theorem payloadCipherRoundTrips : Obligations.PayloadCipherRoundTrips := by
  intro ser counter button DK d
  have hd : d = _ := (decPayload_encPayload ser counter button DK).trans (decodedOf_ptSeed ..)
  rw [hd]
  exact ⟨rfl, rfl, rfl⟩
end

section
/-! The commands of the ScrambleCipher: the words that start nothing, acceptance, completion and the examples
(41_scramble_cipher.md R150 to R154). -/

namespace Sys2Proof.Machine

/-! ## Words of SCR_L and SCR_R -/

/-- Under OP 5 and OP 6 a word with TSEL = 3 or a nonzero RSVD is illegal (30_encoding.md R84). -/
theorem illegalVariant_of_badTable {op : BitVec 4} {w : Word} (hop : opField w = op) (htable : op = 0x5 ∨ op = 0x6)
    (hbad : tselField w = 3 ∨ rsvdField w ≠ 0) : IllegalVariant op w := by
  rw [← hop]
  refine illegalVariant_of_not_legal (Bool.eq_false_iff.2 fun hw => ?_)
  obtain ⟨hrsvd, -, htsel⟩ := legal_iff.1 hw
  rw [hop, if_pos htable] at htsel
  exact hbad.elim htsel fun h => h hrsvd

/-! ## The key table -/

/-- At the defaults the table holds the two expansion results twice (R136). -/
theorem fillKT_copy (a b : CState) :
    fillKT cfg a b =
      #v[a.s0, a.s1, a.s2, a.s3, b.s0, b.s1, b.s2, b.s3, a.s0, a.s1, a.s2, a.s3, b.s0, b.s1, b.s2, b.s3] := rfl

/-- SERIAL bits 27:24 are in no serial byte (10_state.md R30). -/
theorem serialBytes_eq_of_low {x y : BitVec 28} (h : x.extractLsb' 0 24 = y.extractLsb' 0 24) :
    serialBytes x = serialBytes y := by
  have hbyte (i : Nat) (hi : i + 8 ≤ 24) : x.extractLsb' i 8 = y.extractLsb' i 8 := by
    rw [← BitVec.extractLsb'_extractLsb'_of_le (x := x) hi, h, BitVec.extractLsb'_extractLsb'_of_le hi]
  rw [serialBytes, hbyte 0 (by decide), hbyte 8 (by decide), hbyte 16 (by decide), serialBytes]

/-- Bits 3:0 of the button are not in the seed (R138). -/
theorem ptSeed_eq_of_high {x y : Byte} (h : x.extractLsb' 4 4 = y.extractLsb' 4 4) (ser0 : Byte) (n : BitVec 16) :
    ptSeed ser0 n x = ptSeed ser0 n y := by
  have hhigh : ∀ z : Byte, z &&& (0xF0 : Byte) = z.extractLsb' 4 4 ++ 0#4 := by decide
  have hxy : x &&& (0xF0 : Byte) = y &&& (0xF0 : Byte) := by rw [hhigh, h, ← hhigh]
  exact congrArg (CState.mk _ _ _ <| · ||| _) hxy

/-! ## Completion -/

theorem exec_expand_busy {s : State} (h : s.seq.phase = .busy) :
    exec .expand s = .next (commitExpand (expandKT cfg (serialBytes s.serial) (le8 s.dkey)) s) := by
  rw [exec, execExpand, commandTurn_busy h]

theorem exec_scrL_busy (t : TableSel) {s : State} (h : s.seq.phase = .busy) :
    exec (.scrL t) s =
      .next (completedWith .none { s with cstate := unle4 (shiftLeft cfg (le4 s.cstate) (s.tableOf t)) }) := by
  rw [exec, execScrL, commandTurn_busy h]
  rfl

theorem exec_scrR_busy (t : TableSel) {s : State} (h : s.seq.phase = .busy) :
    exec (.scrR t) s =
      .next (completedWith .none { s with cstate := unle4 (shiftRight cfg (le4 s.cstate) (s.tableOf t)) }) := by
  rw [exec, execScrR, commandTurn_busy h]
  rfl

theorem exec_encPayload_busy {s : State} (h : s.seq.phase = .busy) :
    exec .encPayload s =
      .next (commitEncPayload (expandKT cfg (serialBytes s.serial) (le8 s.dkey))
        (encPayload cfg (serialBytes s.serial) s.counter s.button (le8 s.dkey)).2 s) := by
  rw [exec, execEncPayload, commandTurn_busy h]
  rfl

theorem exec_decPayload_busy {s : State} (h : s.seq.phase = .busy) :
    exec .decPayload s = .next (commitDecoded (decPayload cfg (serialBytes s.serial) s.block (le8 s.dkey)) s) := by
  rw [exec, execDecPayload, commandTurn_busy h]

/-- A check passed commits DECRES, one failed reports INTEGRITY and leaves it (R154, 60_exceptions.md R223). -/
theorem commitDecoded_passed {ser0 : Byte} {D : CState} (h : D.s2 = ser0 <<< 6 ∧ D.s3 &&& 0x03 = (ser0 >>> 2) &&& 0x03)
    (K : KeyTable) (s : State) :
    commitDecoded (decodedOf ser0 K D) s =
      completedWith .none
        { s with kt := K, cstate := unle4 D, decCounter := D.s1 ++ D.s0, decButton := D.s3 &&& 0xF0 } :=
  commitDecoded_ok (integrityOk_iff.2 h)

theorem commitDecoded_refused {ser0 : Byte} {D : CState}
    (h : ¬(D.s2 = ser0 <<< 6 ∧ D.s3 &&& 0x03 = (ser0 >>> 2) &&& 0x03)) (K : KeyTable) (s : State) :
    commitDecoded (decodedOf ser0 K D) s = completedWith .integrity { s with kt := K, cstate := unle4 D } :=
  commitDecoded_failed (Bool.eq_false_iff.2 fun hok => h (integrityOk_iff.1 hok))

/-- DECRES reads the button above the two counter bytes (10_state.md R33). -/
theorem readReg_decres_of_bytes {t : State} {b1 b0 : Byte} (h : t.decCounter = b1 ++ b0) :
    t.readReg .decres = (0x00 : Byte) ++ t.decButton ++ b1 ++ b0 := by
  rw [State.readReg, h, BitVec.append_assoc']
  rfl

/-! ## The examples -/

/-- V-EXP-1. -/
theorem expandKT_vector :
    expandKT cfg (serialBytes 0x1234567) (le8 0x0123456789ABCDEF) =
      #v[0x19, 0x01, 0x87, 0xE9, 0x1F, 0x79, 0xCB, 0xBF, 0x19, 0x01, 0x87, 0xE9, 0x1F, 0x79, 0xCB, 0xBF] := by
  decide +kernel

/-- The zero corner of R150. -/
theorem expandKT_vector_zero :
    expandKT cfg (serialBytes 0) (le8 0) =
      #v[0x3A, 0xA5, 0x54, 0xBC, 0x7E, 0xBA, 0x3D, 0x18, 0x3A, 0xA5, 0x54, 0xBC, 0x7E, 0xBA, 0x3D, 0x18] := by
  decide +kernel

/-- V-PAY-1. -/
theorem encPayload_vector :
    unle4 (encPayload cfg (serialBytes 0x1234567) 0x0001 0x50 (le8 0x0123456789ABCDEF)).2 = 0x4E984241 := by
  rw [encPayload, expandKT_vector]
  decide +kernel

/-- V-PAY-1, decoded: the decryption gives the seed back. -/
theorem decPayload_vector :
    decPayload cfg (serialBytes 0x1234567) 0x4E984241 (le8 0x0123456789ABCDEF) =
      { kt := expandKT cfg (serialBytes 0x1234567) (le8 0x0123456789ABCDEF), plain := le4 0x51C00001, ok := true,
        counter := 0x0001, button := 0x50 } := by
  rw [← encPayload_vector, decPayload_encPayload, decodedOf_ptSeed]
  rfl

/-- What a decryption gives is read off the decrypted bytes. -/
theorem decPayload_of_plain {ser : SerialBytes} {x : Word} {DK : Table} {D : CState}
    (h : shiftLeft cfg (le4 x) (ktHalf (expandKT cfg ser DK) cfg.ktHalfL) = D) :
    decPayload cfg ser x DK = decodedOf ser.ser0 (expandKT cfg ser DK) D := by
  rw [decPayload, ← h]

/-- V-PAY-6: a wrong key that passes the check. -/
theorem decPayload_vector_wrongKeyPasses :
    decPayload cfg (serialBytes 0x1234567) 0x4E984241 (le8 0x4D36A8ED3284FC6F) =
      { kt := expandKT cfg (serialBytes 0x1234567) (le8 0x4D36A8ED3284FC6F), plain := ⟨0xDA, 0xB2, 0xC0, 0x29⟩
        ok := true, counter := 0xB2DA, button := 0x20 } :=
  decPayload_of_plain (by decide +kernel)

/-- V-PAY-5: a wrong key that the check refuses. -/
theorem decPayload_vector_wrongKeyFails :
    decPayload cfg (serialBytes 0x1234567) 0x4E984241 (le8 0x0123456789ABCDEE) =
      decodedOf 0x67 (expandKT cfg (serialBytes 0x1234567) (le8 0x0123456789ABCDEE)) (le4 0x170BE54B) :=
  decPayload_of_plain (by decide +kernel)

end Sys2Proof.Machine

open Sys2Proof Sys2Proof.Machine

/-- Settles O15: the completion commits the two expansion results, and the host reads their bytes. -/
theorem expandBuildsKeyTable : Obligations.ExpandBuildsKeyTable := by
  refine ⟨rfl, fun s h => exec_idle_accepted (i := .expand) (by decide) (by decide) (by decide) h,
    fun s a b h ha hb => ?_, fun w => illegalVariant_of_ne_encode (i := .expand) (by decide), fun x y T hxy => ?_,
    expandKT_vector_zero, expandKT_vector⟩
  · have hkt : expandKT cfg (serialBytes s.serial) (le8 s.dkey) = fillKT cfg a b := by
      rw [ha, hb]
      rfl
    rw [exec_expand_busy h, hkt, fillKT_copy]
    exact ⟨_, rfl, rfl, rfl, rfl, rfl, rfl, rfl⟩
  · rw [serialBytes_eq_of_low hxy]

/-- Settles O16: the completion commits ShiftLeft under the table TSEL selects. -/
theorem scrLShiftsStateLeft : Obligations.ScrLShiftsStateLeft := by
  refine ⟨rfl, rfl, rfl, fun s t h => exec_idle_accepted (i := .scrL t) (by simp) (by simp) (by simp) h,
    fun s h => ⟨exec_scrL_busy .dkey h, exec_scrL_busy .kt0 h, exec_scrL_busy .kt1 h⟩,
    fun w hop => illegalVariant_of_badTable hop (.inl rfl), ?_, rfl, rfl, shiftLeft_shiftRight cfg_invertible,
    by decide +kernel⟩
  rw [shiftLeft_eq_stdDec]
  exact congrArg le4 (stdDec_of_stdEnc stdEnc_zero)

/-- Settles O17: the completion commits ShiftRight under the table TSEL selects. -/
theorem scrRShiftsStateRight : Obligations.ScrRShiftsStateRight := by
  refine ⟨rfl, rfl, rfl, fun s t h => exec_idle_accepted (i := .scrR t) (by simp) (by simp) (by simp) h,
    fun s h => ⟨exec_scrR_busy .dkey h, exec_scrR_busy .kt0 h, exec_scrR_busy .kt1 h⟩,
    fun w hop => illegalVariant_of_badTable hop (.inr rfl), ?_, shiftRight_shiftLeft cfg_invertible, by decide +kernel⟩
  rw [shiftRight_eq_stdEnc]
  exact congrArg le4 stdEnc_zero

/-- Settles O18: the completion commits the table and, in STATE and BLOCK, the seed scrambled under its half 1. -/
theorem encPayloadEncryptsIntoBlock : Obligations.EncPayloadEncryptsIntoBlock := by
  refine ⟨rfl, fun s h => exec_idle_accepted (i := .encPayload) (by decide) (by decide) (by decide) h,
    fun s K C h hK hC => ?_, fun w => illegalVariant_of_ne_encode (i := .encPayload) (by decide),
    fun ser n x y hxy => ptSeed_eq_of_high hxy ser n, by decide, encPayload_vector⟩
  rw [exec_encPayload_busy h, hC, hK]
  rfl

/-- Settles O19: the completion commits what the check lets through. -/
theorem decPayloadChecksRedundancy : Obligations.DecPayloadChecksRedundancy := by
  refine ⟨rfl, fun s h => exec_idle_accepted (i := .decPayload) (by decide) (by decide) (by decide) h,
    fun s K D ser0 h hK hser hD => ?_, fun w => illegalVariant_of_ne_encode (i := .decPayload) (by decide),
    decPayload_vector_wrongKeyPasses, decPayload_vector, ?_, ?_⟩
  have hexec : exec .decPayload s = .next (commitDecoded (decodedOf ser0 K D) s) := by
    rw [exec_decPayload_busy h, hD, hser, hK]
    rfl
  rw [hexec]
  refine ⟨fun hok => ⟨_, rfl, commitDecoded_passed hok K s, ?_⟩, fun hbad => ⟨_, rfl, commitDecoded_refused hbad K s, ?_⟩⟩
  · rw [commitDecoded_passed hok]
    exact readReg_decres_of_bytes rfl
  · rw [commitDecoded_refused hbad]
    rfl
  · rw [decPayload_vector_wrongKeyFails]
    rfl
  · rw [decPayload_vector_wrongKeyFails]
    rfl
end

section
/-! The moves that change the key table: the completion of the five commands that expand it, and a reset
(41_scramble_cipher.md R137). -/

namespace Sys2Proof.Machine

/-! ## Completion -/

theorem exec_nop_busy {s : State} (h : s.seq.phase = .busy) : exec .nop s = .next (complete .none s) := by
  rw [exec, execNop, commandTurn_busy h]

theorem exec_build_busy {s : State} (h : s.seq.phase = .busy) :
    exec .build s =
      .next (commitBuild (expandKT cfg (serialBytes s.serial) (le8 s.dkey))
        (encPayload cfg (serialBytes s.serial) s.counter s.button (le8 s.dkey)).2
        (buildPayload cfg s.serial s.counter s.button (le8 s.dkey)).2.2 s) := by
  rw [exec, execBuild, commandTurn_busy h]
  rfl

theorem exec_decode_busy {s : State} (h : s.seq.phase = .busy) :
    exec .decode s = .next (commitDecoded (decodePayload cfg s.serial s.payload (le8 s.dkey)) s) := by
  rw [exec, execDecode, commandTurn_busy h]

/-- The key-table writers (R137). -/
def ktWriters : List Instr := [.expand, .encPayload, .decPayload, .build, .decode]

theorem mem_ktWriters_iff {i : Instr} : i ∈ ktWriters ↔ i = .expand ∨ lastPass i = 2 := by
  cases i <;> simp [ktWriters, lastPass]

theorem commitDecoded_kt (d : Decoded) (s : State) : (commitDecoded d s).kt = d.kt := by
  cases h : d.ok with
  | true => rw [commitDecoded_ok h]; rfl
  | false => rw [commitDecoded_failed h]; rfl

/-- A key-table writer completes with KT expanded from SERIAL and DKEY. -/
theorem exec_busy_kt_of_writer {i : Instr} {s t : State} (hi : i ∈ ktWriters) (hb : s.seq.phase = .busy)
    (h : exec i s = .next t) : t.kt = expandKT cfg (serialBytes s.serial) (le8 s.dkey) := by
  obtain rfl | hi := mem_ktWriters_iff.1 hi
  · cases (exec_expand_busy hb).symm.trans h
    rfl
  · obtain rfl | rfl | rfl | rfl := threePass_cases hi
    · cases (exec_encPayload_busy hb).symm.trans h
      rfl
    · cases (exec_decPayload_busy hb).symm.trans h
      exact commitDecoded_kt ..
    · cases (exec_build_busy hb).symm.trans h
      rfl
    · cases (exec_decode_busy hb).symm.trans h
      exact commitDecoded_kt ..

theorem transfer_kt (s : State) : (transfer s).kt = s.kt := by
  obtain ⟨-, e⟩ | ⟨r, -, -, e⟩ | ⟨r, -, -, e⟩ := transfer_cases s <;> rw [e]
  rfl

/-- No other command's completion touches KT. -/
theorem exec_busy_kt_of_not_writer {i : Instr} {s t : State} (hi : i ∉ ktWriters) (hb : s.seq.phase = .busy)
    (h : exec i s = .next t) : t.kt = s.kt := by
  cases i with
  | nop => cases (exec_nop_busy hb).symm.trans h; rfl
  | stdEnc => cases (exec_stdEnc_busy hb).symm.trans h; rfl
  | stdDec => cases (exec_stdDec_busy hb).symm.trans h; rfl
  | derive => cases (exec_derive_busy hb).symm.trans h; rfl
  | scrL t => cases (exec_scrL_busy t hb).symm.trans h; rfl
  | scrR t => cases (exec_scrR_busy t hb).symm.trans h; rfl
  | pulse => cases (exec_pulse_busy hb).symm.trans h; exact transfer_kt s
  | _ => simp [ktWriters] at hi

theorem exec_idle_kt {i : Instr} {s t : State} (hi : s.seq.phase = .idle) (h : exec i s = .next t) : t.kt = s.kt := by
  obtain ⟨code, rfl⟩ | ⟨-, -, -, rfl⟩ | ⟨-, rfl⟩ := exec_idle_cases hi h <;> rfl

/-- How a move can change KT: as the completion of a key-table writer, or as a reset. -/
def KtFrame (s t : State) : Prop :=
  t.kt = s.kt ∨
    (s.seq.phase = .busy ∧ t.seq.phase = .idle ∧ t.kt = expandKT cfg (serialBytes s.serial) (le8 s.dkey) ∧
      ∃ i ∈ ktWriters, s.running = some i) ∨
    AtReset t

theorem completeTurn_ktFrame {s t : State} (h : completeTurn s = .next t) : KtFrame s t := by
  obtain ⟨i, hb, hi, hp, e⟩ | ⟨-, e⟩ := completeTurn_cases s
  · have hexec := e.symm.trans h
    by_cases hw : i ∈ ktWriters
    · obtain ⟨u, hu, hc⟩ := exec_busy hb hp
      cases hu.symm.trans hexec
      exact .inr (.inl ⟨hb, hc.idle, exec_busy_kt_of_writer hw hb hexec, i, hw, hi⟩)
    · exact .inl (exec_busy_kt_of_not_writer hw hb hexec)
  · cases e.symm.trans h
    exact .inl rfl

theorem transferTurn_ktFrame {s t : State} (h : transferTurn s = .next t) : KtFrame s t := by
  obtain ⟨-, -, e⟩ | e := transferTurn_cases s <;> cases e.symm.trans h
  · exact .inl (transfer_kt s)
  · exact .inl rfl

/-! ## Clock cycles -/

theorem commitDatapath_kt_of_not_writer {i : Instr} (hi : i ∉ ktWriters) (s : State) :
    (commitDatapath i s).kt = s.kt := by
  cases i with
  | expand | encPayload | decPayload | build | decode => simp [ktWriters] at hi
  | _ => rfl

theorem commitDatapath_kt_threePass {i : Instr} (hi : lastPass i = 2) (s : State) :
    (commitDatapath i s).kt = fillKT cfg s.seq.half0 s.seq.half1 := by
  obtain rfl | rfl | rfl | rfl := threePass_cases hi
  · rfl
  · exact commitDecoded_kt ..
  · rfl
  · exact commitDecoded_kt ..

/-- The last cycle of a key-table writer commits what Complete commits: the datapath holds both expansion results. -/
theorem commitDatapath_kt_of_writer {i : Instr} {s : State} {kind : PassKind} (hi : i ∈ ktWriters)
    (hk : passKind i s.seq.pass = some kind) (hr : s.seq.r = 527) (hp : s.seq.pass = lastPass i) (h : DatapathInv i s) :
    (commitDatapath i (bitStepped i kind s)).kt = expandKT cfg (serialBytes s.serial) (le8 s.dkey) := by
  obtain ⟨-, hv, -⟩ := (datapathInv_iff hk).1 h
  obtain ⟨-, -, -, -, -, -, -, h0, h1⟩ := bitStep_keeps kind (passTable i s.seq.pass s s.seq) s.seq
  obtain rfl | hi := mem_ktWriters_iff.1 hi
  · cases hk
    have hwork := bitStepped_work_of_leftPass (i := .expand) rfl hr h (by rw [hp]; rfl)
    change fillKT cfg (bitStepped .expand .left s).seq.half0 (bitStepped .expand .left s).seq.work = _
    rw [hwork]
    exact congrArg (fillKT cfg · _) (h0.trans (hv hp))
  · obtain ⟨hhalf0, hhalf1⟩ := (passesInv_threePass hi s).1 hv
    rw [hi] at hp
    rw [commitDatapath_kt_threePass hi, expandKT, ← hhalf0 (by rw [hp]; decide), ← hhalf1 hp, ← h0, ← h1]
    rfl

theorem cycle_ktFrame {i : Instr} {s : State} (hb : s.seq.phase = .busy) (hi : s.running = some i) (hp : i ≠ .pulse)
    (hd : DatapathInv i s) : KtFrame s (cycle i s) := by
  have hmove := cycle_move i s
  generalize cycle i s = t at hmove
  cases hmove with
  | still | inPass | endOfPass => exact .inl rfl
  | @endOfCommand kind hk hr hlast =>
    by_cases hw : i ∈ ktWriters
    · have hkt := commitDatapath_kt_of_writer hw hk hr hlast hd
      exact .inr (.inl ⟨hb, (commitDatapath_completesInto hp _).idle, hkt, i, hw, hi⟩)
    · exact .inl (commitDatapath_kt_of_not_writer hw _)

theorem tickTurn_ktFrame {s : State} (h : Inv s) : KtFrame s (tickTurn s) := by
  obtain ⟨i, hb, hi, e⟩ | e := tickTurn_cases s <;> rw [e]
  · by_cases hp : i = .pulse
    · subst hp
      exact .inl rfl
    · obtain ⟨-, -, -, hd, -⟩ := (inv_running_iff hb hi hp).1 h
      exact cycle_ktFrame hb hi hp hd
  · exact .inl rfl

/-! ## The host's access -/

theorem writeReg_ktFrame (r : Reg) (v : Word) (s : State) : KtFrame s (writeReg r v s) := by
  obtain ⟨-, e⟩ | ⟨-, e⟩ | ⟨-, -, e⟩ | ⟨-, e⟩ := writeReg_cases r v s <;> rw [e]
  · exact .inl rfl
  · cases hv : v.getLsbD 1 with
    | true => rw [writeCtrl_softReset hv]; exact .inr (.inr (resetBlock_atReset s))
    | false => rw [writeCtrl_keeps hv]; exact .inl rfl
  · exact .inl rfl
  · obtain ⟨-, -, hkt, -⟩ := writeData_keeps r v s
    exact .inl hkt

theorem writeCmd_kt {w : Word} {s t : State} (h : writeCmd w s = .next t) : t.kt = s.kt := by
  obtain ⟨-, rfl⟩ | ⟨-, rfl⟩ | ⟨hi, i, he⟩ := writeCmd_cases h
  · rfl
  · rfl
  · exact exec_idle_kt hi he

theorem access_ktFrame {a : BusAccess} {s t : State} (h : access a s = .next t) : KtFrame s t := by
  cases access_move h with
  | refused => rw [refuseAccess_eq]; exact .inl rfl
  | read => obtain ⟨v, e⟩ | e := busRead_cases a.addr s <;> rw [e] <;> exact .inl rfl
  | reserved => exact .inl rfl
  | command _ _ _ hc => exact .inl (writeCmd_kt (s := { s with reply := .written }) hc)
  | register => exact writeReg_ktFrame _ _ { s with reply := .written }

theorem takeTurn_ktFrame {turn : Turn} {s t : State} (hs : Inv s) (h : takeTurn turn s = .next t) : KtFrame s t := by
  cases turn with
  | host =>
    obtain ⟨a, rest, -, ha⟩ | ⟨hs, rep, n, rfl⟩ := hostTurn_cases h
    · exact access_ktFrame (s := { s with host := rest }) ha
    · exact .inl rfl
  | complete => exact completeTurn_ktFrame h
  | tick => cases h; exact tickTurn_ktFrame hs
  | transfer => exact transferTurn_ktFrame h
  | hardReset => cases h; exact .inr (.inr (resetBlock_atReset s))
  | hostInReset =>
    cases h
    obtain ⟨hs, rep, e⟩ := hostInReset_cases s
    rw [e]
    exact .inr (.inr (resetBlock_atReset { s with host := hs, reply := rep }))

end Sys2Proof.Machine

open Sys2Proof Sys2Proof.Machine

/-- Settles O54: a step is a turn, and of all turns only a completion of a writer, a reset or a soft reset changes KT. -/
theorem onlyFiveCommandsWriteKeyTable : Obligations.OnlyFiveCommandsWriteKeyTable := by
  refine ⟨fun i s t hi hb h => exec_busy_kt_of_writer hi hb h, fun s t hs h hne => ?_⟩
  rw [step_eq_takeTurn] at h
  exact (takeTurn_ktFrame (s := { s with turns := s.turns.tail }) hs h).resolve_left hne
end

section
/-! BUILD and DECODE: the button check, acceptance, completion, the examples, and what a payload keeps of its inputs
(42_payload_codec.md R170 to R178). -/

namespace Sys2Proof.Machine

/-! ## The button check -/

theorem buttonRefused_iff {c : Cfg} {button : Byte} :
    buttonRefused c button = true ↔ c.buttonCheck = true ∧ button ∉ c.validButtons := by
  simp [buttonRefused]

/-- At the defaults BUILD takes three buttons (R174). -/
theorem buttonRefused_cfg_iff {button : Byte} :
    buttonRefused cfg button = true ↔ button ≠ 0x50 ∧ button ≠ 0xA0 ∧ button ≠ 0x10 := by
  simp [buttonRefused_iff, cfg]

theorem buttonRefused_cfg_eq_false_iff {button : Byte} :
    buttonRefused cfg button = false ↔ button = 0x50 ∨ button = 0xA0 ∨ button = 0x10 := by
  rw [Bool.eq_false_iff, ne_eq, buttonRefused_cfg_iff]
  tauto

/-! ## Acceptance -/

/-- A word that completes at once in an Idle block writes STATUS alone (60_exceptions.md R225). -/
theorem complete_presented_idle {s : State} (h : s.seq.phase = .idle) (code : ErrCode) (op : BitVec 4) :
    complete code (presented op s) = { s with doneFlag := true, err := code, lastop := op } := by
  simp only [complete, presented, ← h]

theorem accept_acceptedAs (i : Instr) (s : State) : AcceptedAs (opcodeOf i) (tselOf i) s (accept i s) := by
  obtain ⟨hphase, hop, htsel, -⟩ := accept_latched i s
  exact ⟨(accept i s).seq, rfl, hphase, hop, htsel⟩

theorem exec_build_refused {s : State} (h : s.seq.phase = .idle) (hb : buttonRefused cfg s.button = true) :
    exec .build s = .next { s with doneFlag := true, err := .invalidButton, lastop := 0x9 } := by
  rw [exec, execBuild, commandTurn_idle h, if_pos hb, complete_presented_idle h]
  rfl

theorem exec_build_accepted {s : State} (h : s.seq.phase = .idle) (hb : buttonRefused cfg s.button = false) :
    exec .build s = .next (accept .build s) := by
  rw [exec, execBuild, commandTurn_idle h, if_neg (Bool.eq_false_iff.1 hb)]

/-! ## Completion -/

theorem buildPayload_payload (c : Cfg) (serial : BitVec 28) (counter : BitVec 16) (button : Byte) (DK : Table) :
    (buildPayload c serial counter button DK).2.2 =
      packPayload c serial button (encPayload c (serialBytes serial) counter button DK).2 := rfl

/-- BUILD leaves the ciphertext in STATE and PAYLOAD0, the button above the serial bytes in PAYLOAD1, and 0 in PAYLOAD2
(R170, R175). -/
theorem commitBuild_packPayload (K : KeyTable) (C : CState) (s : State) :
    commitBuild K C (packPayload cfg s.serial s.button C) s =
      completedWith .none
        { s with
          kt := K, cstate := unle4 C, payload0 := unle4 C
          payload1 := s.button ++ s.serial.extractLsb' 16 8 ++ s.serial.extractLsb' 8 8 ++ s.serial.extractLsb' 0 8
          payload2 := 0x00 } := rfl

/-- DECODE decrypts the word of P0 to P3, whatever P4 to P8 hold (R173). -/
theorem decodePayload_of_word {P : PayloadBytes} {w : Word} (h : wordOfBytes P[0] P[1] P[2] P[3] = w) (c : Cfg)
    (serial : BitVec 28) (DK : Table) : decodePayload c serial P DK = decPayload c (serialBytes serial) w DK := by
  rw [decodePayload, h]

theorem exec_decode_busy_payload0 {s : State} (h : s.seq.phase = .busy) :
    exec .decode s = .next (commitDecoded (decPayload cfg (serialBytes s.serial) s.payload0 (le8 s.dkey)) s) := by
  have hword : wordOfBytes s.payload[0] s.payload[1] s.payload[2] s.payload[3] = s.payload0 := wordOfBytes_byteOf _
  rw [exec_decode_busy h, decodePayload_of_word hword]

/-! ## The examples -/

/-- V-PAY-2. -/
theorem buildPayload_vector :
    (buildPayload cfg 0x1234567 0x0001 0x50 (le8 0x0123456789ABCDEF)).2.2 =
      #v[0x41, 0x42, 0x98, 0x4E, 0x67, 0x45, 0x23, 0x50, 0x00] := by
  have hC : (encPayload cfg (serialBytes 0x1234567) 0x0001 0x50 (le8 0x0123456789ABCDEF)).2 = le4 0x4E984241 := by
    rw [← encPayload_vector, le4_unle4]
  rw [buildPayload_payload, hC]
  rfl

/-- V-PAY-5: V-PAY-1's cipher under a wrong serial. -/
theorem decPayload_vector_wrongSerial :
    decPayload cfg (serialBytes 0x1234566) 0x4E984241 (le8 0x0123456789ABCDEF) =
      decodedOf 0x66 (expandKT cfg (serialBytes 0x1234566) (le8 0x0123456789ABCDEF)) ⟨0xE3, 0x5B, 0x6E, 0xFA⟩ :=
  decPayload_of_plain (by decide +kernel)

/-! ## What a payload keeps -/

/-- The ciphertext of a payload decrypts to its seed, which passes the check (R143). -/
theorem decPayload_of_encPayload (ser : SerialBytes) (counter : BitVec 16) (button : Byte) (DK : Table) :
    decPayload cfg ser (unle4 (encPayload cfg ser counter button DK).2) DK =
      { kt := expandKT cfg ser DK, plain := ptSeed ser.ser0 counter button, ok := true, counter := counter
        button := button &&& 0xF0 } :=
  (decPayload_encPayload ..).trans (decodedOf_ptSeed ..)

theorem encPayload_injective_counter (ser : SerialBytes) (button : Byte) (DK : Table) :
    Function.Injective fun counter => (encPayload cfg ser counter button DK).2 := by
  intro x y h
  have hd := congrArg (fun C => (decPayload cfg ser (unle4 C) DK).counter) h
  simpa only [decPayload_of_encPayload] using hd

/-- DECRES is the counter with the button shifted above it (10_state.md R33). -/
theorem readReg_decres_eq_or (t : State) :
    t.readReg .decres = t.decCounter.setWidth 32 ||| (t.decButton.setWidth 32 <<< 16) := by
  have hword : t.readReg .decres = (t.decButton ++ t.decCounter).setWidth 32 := by
    rw [State.readReg, BitVec.append_assoc, zero_append_eq_setWidth]
    rfl
  rw [hword, BitVec.setWidth_append_eq_shiftLeft_setWidth_or, BitVec.or_comm]

end Sys2Proof.Machine

open Sys2Proof Sys2Proof.Machine

/-- Settles O20: the button check decides at acceptance, and the completion commits the packed payload. -/
theorem buildPacksPayload : Obligations.BuildPacksPayload := by
  refine ⟨rfl, fun s h hb => exec_build_refused h (buttonRefused_cfg_iff.2 hb),
    fun s h hb => ⟨_, exec_build_accepted h (buttonRefused_cfg_eq_false_iff.2 hb), accept_acceptedAs .build s⟩,
    fun s K C h hK hC => ?_, fun w => illegalVariant_of_ne_encode (i := .build) (by decide), fun s t h ht => ?_,
    fun c b => buttonRefused_iff, buildPayload_vector⟩
  · rw [exec_build_busy h, buildPayload_payload, commitBuild_packPayload, hC, hK]
    rfl
  · cases (exec_build_busy h).symm.trans ht
    exact ⟨rfl, rfl⟩

/-- Settles O21: the completion commits what the check lets through of the word that P0 to P3 hold. -/
theorem decodeDecryptsPayload : Obligations.DecodeDecryptsPayload := by
  refine ⟨rfl, fun s h => exec_idle_accepted (i := .decode) (by decide) (by decide) (by decide) h,
    fun s K D ser0 h hK hser hD => ?_, fun w => illegalVariant_of_ne_encode (i := .decode) (by decide),
    fun serial P Q T hPQ => ?_, ?_, ?_⟩
  · have hexec : exec .decode s = .next (commitDecoded (decodedOf ser0 K D) s) := by
      rw [exec_decode_busy_payload0 h, hD, hser, hK]
      rfl
    rw [hexec]
    refine ⟨fun hok => ⟨_, rfl, commitDecoded_passed hok K s, ?_⟩,
      fun hbad => ⟨_, rfl, commitDecoded_refused hbad K s, ?_⟩⟩
    · rw [commitDecoded_passed hok]
      exact readReg_decres_of_bytes rfl
    · rw [commitDecoded_refused hbad]
      rfl
  · obtain ⟨h0, h1, h2, h3⟩ := hPQ
    rw [decodePayload_of_word rfl, decodePayload_of_word rfl, h0, h1, h2, h3]
  · rw [decodePayload_of_word (w := 0x4E984241) rfl, decPayload_vector_wrongSerial]
    rfl
  · rw [decodePayload_of_word (w := 0x4E984241) rfl, decPayload_vector]

/-- Settles O35: PAYLOAD0 holds the ciphertext, which DECODE decrypts under the same key table. -/
theorem buildThenDecodeRestoresCounter : Obligations.BuildThenDecodeRestoresCounter := by
  intro s t u v hs ht hu hserial hdkey hpayload hv
  have ht0 : t.payload0 = unle4 (encPayload cfg (serialBytes s.serial) s.counter s.button (le8 s.dkey)).2 := by
    cases (exec_build_busy hs).symm.trans ht
    rfl
  rw [exec_decode_busy_payload0 hu, hserial, hdkey, hpayload, ht0, decPayload_of_encPayload, commitDecoded_ok rfl] at hv
  cases hv
  exact ⟨rfl, rfl, rfl, rfl, readReg_decres_eq_or _⟩

/-- Settles O36: a ciphertext decrypts to its counter. -/
theorem counterChangesCiphertext : Obligations.CounterChangesCiphertext :=
  fun serial _ _ button DK => (encPayload_injective_counter (serialBytes serial) button DK).ne
end

section
/-! The pulse encoder: the records of PulseSeq by their index and their total duration, and the transfers that hand them
over (43_pulse_encoder.md R190 to R195). -/

namespace Sys2Proof.Machine

/-! ## The records by their index -/

/-- Either way a payload bit is one record of level 1 and one of level 0; the bit says which of the two is long. -/
theorem bitPair_eq (c : Cfg) (b : Bool) :
    bitPair c b =
      [pulse true (if b then c.shortTicks else c.longTicks), pulse false (if b then c.longTicks else c.shortTicks)] := by
  cases b <;> rfl

theorem payloadBit_eq (P : PayloadBytes) {n : Nat} (h : n < 72) :
    payloadBit P n = (P[n / 8]'(by omega)).getLsbD (n % 8) := by
  have hbyte : n / 8 < P.toList.length := by rw [Vector.length_toList]; omega
  rw [payloadBit, List.getD_eq_getElem _ _ hbyte, Vector.getElem_toList]

theorem length_flatMap_pair {α : Type} (f g : Nat → α) (m : Nat) :
    ((List.range m).flatMap fun n => [f n, g n]).length = 2 * m := by
  simp [List.length_flatMap, Nat.mul_comm]

/-- In a list of pairs laid out flat, pair `n` stands at `2 n` and `2 n + 1`. -/
theorem getElem?_flatMap_pair {α : Type} (f g : Nat → α) {m n : Nat} (h : n < m) :
    ((List.range m).flatMap fun n => [f n, g n])[2 * n]? = some (f n) ∧
      ((List.range m).flatMap fun n => [f n, g n])[2 * n + 1]? = some (g n) := by
  induction m with
  | zero => omega
  | succ m ih =>
    have hlen := length_flatMap_pair f g m
    rw [List.range_succ, List.flatMap_append]
    obtain hlt | rfl := Nat.lt_succ_iff_lt_or_eq.1 h
    · rw [List.getElem?_append_left (by omega), List.getElem?_append_left (by omega)]
      exact ih hlt
    · rw [List.getElem?_append_right (by omega), List.getElem?_append_right (by omega), hlen]
      simp

/-- The records of the payload's bits, between the header gap and the tail gap of `pulseSeq` (R190). -/
def payloadPairs (c : Cfg) (P : PayloadBytes) : List Record :=
  (List.range c.payloadBits.val).flatMap fun n => bitPair c (payloadBit P n)

theorem payloadPairs_length (c : Cfg) (P : PayloadBytes) : (payloadPairs c P).length = 2 * c.payloadBits.val := by
  simp only [payloadPairs, bitPair_eq, length_flatMap_pair]

theorem payloadPairs_getElem? {c : Cfg} (P : PayloadBytes) {n : Nat} (h : n < c.payloadBits.val) :
    (payloadPairs c P)[2 * n]? = some (pulse true (if payloadBit P n then c.shortTicks else c.longTicks)) ∧
      (payloadPairs c P)[2 * n + 1]? = some (pulse false (if payloadBit P n then c.longTicks else c.shortTicks)) := by
  simp only [payloadPairs, bitPair_eq]
  exact getElem?_flatMap_pair _ _ h

theorem pulseSeq_eq (c : Cfg) (P : PayloadBytes) :
    pulseSeq c P =
      (List.range c.preambleTicks).map preambleRecord ++
        (pulse false c.headerGapTicks :: (payloadPairs c P ++ [pulse false c.tailGapTicks])) := by
  simp [pulseSeq, payloadPairs]

theorem pulseSeq_length (c : Cfg) (P : PayloadBytes) :
    (pulseSeq c P).length = c.preambleTicks + 1 + 2 * c.payloadBits.val + 1 := by
  simp only [pulseSeq_eq, List.length_append, List.length_map, List.length_range, List.length_cons, List.length_nil,
    payloadPairs_length]
  omega

theorem pulseSeq_preamble {c : Cfg} (P : PayloadBytes) {k : Nat} (h : k < c.preambleTicks) :
    (pulseSeq c P)[k]? = some (preambleRecord k) := by
  simp [pulseSeq_eq, List.getElem?_append_left, h]

theorem pulseSeq_headerGap (c : Cfg) (P : PayloadBytes) :
    (pulseSeq c P)[c.preambleTicks]? = some (pulse false c.headerGapTicks) := by
  simp [pulseSeq_eq]

/-- After the preamble and the header gap come the payload's pairs and the tail gap. -/
theorem pulseSeq_afterHeader (c : Cfg) (P : PayloadBytes) (j : Nat) :
    (pulseSeq c P)[c.preambleTicks + 1 + j]? = (payloadPairs c P ++ [pulse false c.tailGapTicks])[j]? := by
  rw [pulseSeq_eq, List.getElem?_append_right (by simp; omega), List.length_map, List.length_range,
    show c.preambleTicks + 1 + j - c.preambleTicks = j + 1 by omega, List.getElem?_cons_succ]

theorem pulseSeq_payloadPair {c : Cfg} (P : PayloadBytes) {n : Nat} (h : n < c.payloadBits.val) :
    (pulseSeq c P)[c.preambleTicks + 1 + 2 * n]? =
        some (pulse true (if payloadBit P n then c.shortTicks else c.longTicks)) ∧
      (pulseSeq c P)[c.preambleTicks + 1 + (2 * n + 1)]? =
        some (pulse false (if payloadBit P n then c.longTicks else c.shortTicks)) := by
  have hlen := payloadPairs_length c P
  rw [pulseSeq_afterHeader, pulseSeq_afterHeader, List.getElem?_append_left (by omega),
    List.getElem?_append_left (by omega)]
  exact payloadPairs_getElem? P h

theorem pulseSeq_tailGap (c : Cfg) (P : PayloadBytes) :
    (pulseSeq c P)[c.preambleTicks + 1 + 2 * c.payloadBits.val]? = some (pulse false c.tailGapTicks) := by
  rw [pulseSeq_afterHeader, ← payloadPairs_length c P, List.getElem?_concat_length]

/-! ## The total duration -/

theorem totalTicks_append (L M : List Record) : totalTicks (L ++ M) = totalTicks L + totalTicks M := by
  simp [totalTicks]

/-- A duration that is a u32 does not wrap. -/
theorem totalTicks_pulse (level : Bool) {ticks : Nat} (h : ticks < 2 ^ 32) : totalTicks [pulse level ticks] = ticks := by
  simpa [totalTicks, pulse] using h

/-- A payload bit takes the same time whatever its value. -/
theorem totalTicks_bitPair {c : Cfg} (hs : c.shortTicks < 2 ^ 32) (hl : c.longTicks < 2 ^ 32) (b : Bool) :
    totalTicks (bitPair c b) = c.shortTicks + c.longTicks := by
  rw [bitPair_eq, ← List.singleton_append, totalTicks_append]
  cases b with
  | false => exact (congrArg₂ (· + ·) (totalTicks_pulse _ hl) (totalTicks_pulse _ hs)).trans (Nat.add_comm _ _)
  | true => exact congrArg₂ (· + ·) (totalTicks_pulse _ hs) (totalTicks_pulse _ hl)

theorem totalTicks_flatMap_range {f : Nat → List Record} {d : Nat} (h : ∀ n, totalTicks (f n) = d) (m : Nat) :
    totalTicks ((List.range m).flatMap f) = m * d := by
  induction m with
  | zero => simp [totalTicks]
  | succ m ih => rw [List.range_succ, List.flatMap_append, totalTicks_append, ih, List.flatMap_singleton, h, Nat.succ_mul]

theorem totalTicks_preamble (m : Nat) : totalTicks ((List.range m).map preambleRecord) = m := by
  have hone (k : Nat) : totalTicks [preambleRecord k] = 1 := totalTicks_pulse _ (by decide)
  rw [List.map_eq_flatMap, totalTicks_flatMap_range hone, Nat.mul_one]

theorem totalTicks_pulseSeq {c : Cfg} (P : PayloadBytes) (hh : c.headerGapTicks < 2 ^ 32) (hs : c.shortTicks < 2 ^ 32)
    (hl : c.longTicks < 2 ^ 32) (ht : c.tailGapTicks < 2 ^ 32) :
    totalTicks (pulseSeq c P) =
      c.preambleTicks + c.headerGapTicks + c.payloadBits.val * (c.shortTicks + c.longTicks) + c.tailGapTicks := by
  rw [pulseSeq, totalTicks_append, totalTicks_append, totalTicks_append, totalTicks_preamble, totalTicks_pulse _ hh,
    totalTicks_pulse _ ht, totalTicks_flatMap_range fun n => totalTicks_bitPair hs hl _]

/-! ## Acceptance and one transfer -/

theorem offered_of_getElem? {recs : List Record} {k : Nat} {r : Record} (h : recs[k]? = some r) :
    offered recs k = { valid := true, level := r.level, ticks := r.ticks, last := k + 1 == recs.length } := by
  rw [offered, h]

theorem exec_pulse_idle {s : State} (h : s.seq.phase = .idle) :
    exec .pulse s = .next { accept .pulse s with port := offered (accept .pulse s).seq.recs 0 } := by
  rw [exec, execPulse, commandTurn_idle h]

/-- A transfer before the last record hands over record k and offers the next one (R192). -/
theorem transfer_of_next {s : State} {r : Record} (hr : s.seq.recs[s.seq.k]? = some r)
    (hnext : s.seq.k + 1 < s.seq.recs.length) :
    transfer s =
      { s with
        out := s.out ++ [r], seq := { s.seq with k := s.seq.k + 1 }, port := offered s.seq.recs (s.seq.k + 1) } := by
  obtain ⟨hnone, -⟩ | ⟨r', hr', -, e⟩ | ⟨-, -, hlast, -⟩ := transfer_cases s
  · cases hnone.symm.trans hr
  · cases hr'.symm.trans hr
    exact e
  · omega

/-- The transfer of the last record completes PULSE (R195). -/
theorem transfer_of_last {s : State} {r : Record} (hr : s.seq.recs[s.seq.k]? = some r)
    (hlast : s.seq.k + 1 = s.seq.recs.length) :
    transfer s =
      { s with
        out := s.out ++ [r], seq := { s.seq with k := s.seq.k + 1, phase := .idle }, port := freePort s.seq.recs
        doneFlag := true, err := .none } := by
  obtain ⟨hnone, -⟩ | ⟨-, -, hne, -⟩ | ⟨r', hr', -, e⟩ := transfer_cases s
  · cases hnone.symm.trans hr
  · exact absurd hlast hne
  · cases hr'.symm.trans hr
    exact e

/-! ## A run of transfers -/

/-- One more step of a run goes on from where the run has come. -/
theorem run_succ_of_run {M : Host.Core} {n : Nat} {s t : M.State} (h : M.run n s = .next t) :
    M.run (n + 1) s = M.step t := by
  induction n generalizing s with
  | zero =>
    cases h
    rw [Host.Core.run]
    cases M.step t <;> rfl
  | succ n ih =>
    rw [Host.Core.run] at h ⊢
    cases hs : M.step s with
    | next u => rw [hs] at h; exact ih h
    | fault | refused => rw [hs] at h; cases h

theorem step_transfer {s : State} {ts : List Turn} (hturns : s.turns = .transfer :: ts) (hb : s.seq.phase = .busy)
    (hi : s.running = some .pulse) : step s = .next (transfer { s with turns := ts }) := by
  have hi' : State.running { s with turns := ts } = some .pulse := hi
  simp only [step, hturns, takeTurn, transferTurn, hb, hi']
  exact exec_pulse_busy hb

/-- `s` after `n` transfers of a PULSE that goes on: only O, k, the port and the schedule have moved. -/
def handedOver (n : Nat) (port : Port) (s : State) : State :=
  { s with
    out := s.out ++ s.seq.recs.take n, seq := { s.seq with k := n }, port := port, turns := s.turns.drop n }

/-- `s` after the transfer of PULSE's last record. -/
def pulseCompleted (s : State) : State :=
  { s with
    out := s.out ++ s.seq.recs, seq := { s.seq with k := s.seq.recs.length, phase := .idle }
    port := freePort s.seq.recs, turns := s.turns.drop s.seq.recs.length, doneFlag := true, err := .none }

theorem pulseCompleted_readReg (s : State) {r : Reg} (h : r ≠ .status) : (pulseCompleted s).readReg r = s.readReg r := by
  cases r with
  | status => exact absurd rfl h
  | _ => rfl

theorem handedOver_zero {s : State} (hk : s.seq.k = 0) : handedOver 0 s.port s = s := by
  have hseq : { s.seq with k := 0 } = s.seq := by rw [← hk]
  simp [handedOver, hseq]

section
variable {s : State} {n : Nat}

theorem transfer_handedOver (port : Port) (hnext : n + 1 < s.seq.recs.length) :
    transfer { handedOver n port s with turns := s.turns.drop (n + 1) } =
      handedOver (n + 1) (offered s.seq.recs (n + 1)) s := by
  have hr : s.seq.recs[n]? = some s.seq.recs[n] := List.getElem?_eq_getElem _
  rw [transfer_of_next hr hnext]
  simp only [handedOver, List.take_add_one, hr, Option.toList_some, List.append_assoc]

theorem transfer_handedOver_last (port : Port) (hlast : n + 1 = s.seq.recs.length) :
    transfer { handedOver n port s with turns := s.turns.drop (n + 1) } = pulseCompleted s := by
  have hr : s.seq.recs[n]? = some s.seq.recs[n] := List.getElem?_eq_getElem _
  have hall : s.seq.recs.take n ++ [s.seq.recs[n]] = s.seq.recs := by
    rw [List.take_append_getElem, hlast, List.take_length]
  rw [transfer_of_last hr hlast]
  simp only [handedOver, pulseCompleted, List.append_assoc, hall, hlast]

variable {ts : List Turn} (hb : s.seq.phase = .busy) (hi : s.running = some .pulse)
  (hturns : s.turns = List.replicate s.seq.recs.length .transfer ++ ts)
include hb hi hturns

/-- The turn after `n < |L|` transfers is the transfer of record `n`. -/
theorem step_handedOver (port : Port) (hn : n < s.seq.recs.length) :
    step (handedOver n port s) = .next (transfer { handedOver n port s with turns := s.turns.drop (n + 1) }) := by
  have hlen : n < s.turns.length := by rw [hturns, List.length_append, List.length_replicate]; omega
  have hturn : s.turns[n] = .transfer := by simp [hturns, hn]
  have hdrop : s.turns.drop n = .transfer :: s.turns.drop (n + 1) := by rw [List.drop_eq_getElem_cons hlen, hturn]
  exact step_transfer hdrop hb hi

theorem run_handedOver (hk : s.seq.k = 0) (hn : n < s.seq.recs.length) :
    ∃ port, core.run n s = .next (handedOver n port s) := by
  induction n with
  | zero => exact ⟨s.port, congrArg Host.Outcome.next (handedOver_zero hk).symm⟩
  | succ n ih =>
    obtain ⟨port, hrun⟩ := ih (Nat.lt_of_succ_lt hn)
    have hstep := step_handedOver hb hi hturns port (Nat.lt_of_succ_lt hn)
    rw [transfer_handedOver port hn] at hstep
    exact ⟨_, (run_succ_of_run hrun).trans hstep⟩

theorem run_pulseCompleted (hk : s.seq.k = 0) (hne : s.seq.recs ≠ []) :
    core.run s.seq.recs.length s = .next (pulseCompleted s) := by
  obtain ⟨m, hm⟩ := Nat.exists_eq_add_one.2 (List.length_pos_iff.2 hne)
  have hlt : m < s.seq.recs.length := by omega
  obtain ⟨port, hrun⟩ := run_handedOver hb hi hturns hk hlt
  have hstep := step_handedOver hb hi hturns port hlt
  rw [transfer_handedOver_last port hm.symm] at hstep
  rw [hm]
  exact (run_succ_of_run hrun).trans hstep

end

end Sys2Proof.Machine

open Sys2Proof Sys2Proof.Machine

/-- Settles O37: the records of every configuration stand at their index, read at the defaults. -/
theorem pulseRecordsStandAtTheirIndex : Obligations.PulseRecordsStandAtTheirIndex := by
  refine fun P => ⟨pulseSeq_length cfg P, fun k hk => pulseSeq_preamble P (c := cfg) hk, pulseSeq_headerGap cfg P,
    fun n hn b hb => ?_, pulseSeq_tailGap cfg P⟩
  have hbit : payloadBit P n = b := (payloadBit_eq P (by omega)).trans hb
  obtain ⟨hhigh, hlow⟩ := pulseSeq_payloadPair (c := cfg) P hn
  rw [hbit] at hhigh hlow
  rw [show 48 + 2 * n = 46 + 1 + (2 * n + 1) by omega]
  cases b <;> exact ⟨hhigh, hlow⟩

/-- Settles O38: a payload bit takes the same time whatever its value. -/
theorem pulseTotalIsIndependentOfPayload : Obligations.PulseTotalIsIndependentOfPayload :=
  ⟨fun c P hh hs hl ht => ⟨totalTicks_pulseSeq P hh hs hl ht, pulseSeq_length c P⟩,
    fun P => totalTicks_pulseSeq P (c := cfg) (by decide) (by decide) (by decide) (by decide)⟩

/-- Settles O39, by induction on the number of transfers. -/
theorem pulseEmitsEveryRecordThenCompletes : Obligations.PulseEmitsEveryRecordThenCompletes := by
  intro s ts hb hi hk hne hturns
  refine ⟨fun n hn => ?_, pulseCompleted s, run_pulseCompleted hb hi hturns hk hne, rfl, rfl, rfl, rfl, rfl, ?_,
    fun r hr => pulseCompleted_readReg s hr⟩
  · obtain ⟨port, hrun⟩ := run_handedOver hb hi hturns hk hn
    exact ⟨handedOver n port s, hrun, rfl, hb, rfl⟩
  · simp [pulseCompleted, hturns]

/-- Settles O22: PULSE is accepted like every command, and record 0 is the first of the preamble. -/
theorem pulseOffersFirstRecord : Obligations.PulseOffersFirstRecord := by
  refine ⟨rfl, fun s h => ?_⟩
  obtain ⟨hphase, hop, htsel, -⟩ := accept_latched .pulse s
  have hfirst : (accept .pulse s).seq.recs[0]? = some (preambleRecord 0) :=
    pulseSeq_preamble s.payload (c := cfg) (by decide)
  have hlen : (accept .pulse s).seq.recs.length = 180 := pulseSeq_length cfg s.payload
  refine ⟨(accept .pulse s).seq, preambleRecord 0, ?_, hphase, hop, htsel, rfl, rfl, hfirst⟩
  rw [exec_pulse_idle h, offered_of_getElem? hfirst, hlen]
  rfl

/-- Settles O23: the next record, or none, tells the two cases of a transfer apart. -/
theorem transferHandsOverOneRecord : Obligations.TransferHandsOverOneRecord := by
  refine ⟨freePort, fun _ => rfl, fun s r hb hr => ⟨fun r' hr' => ?_, fun hnone => ?_⟩⟩
  · obtain ⟨hnext, -⟩ := List.getElem?_eq_some_iff.1 hr'
    rw [exec_pulse_busy hb, transfer_of_next hr hnext, offered_of_getElem? hr']
  · obtain ⟨hk, -⟩ := List.getElem?_eq_some_iff.1 hr
    have hend := List.getElem?_eq_none_iff.1 hnone
    rw [exec_pulse_busy hb, transfer_of_last hr (by omega)]
end

section
/-! NOP: the word that completes in its acceptance cycle and writes STATUS alone (44_control.md R210). -/

namespace Sys2Proof.Machine

/-- A word presented while Busy is dropped before it is decoded, whatever it is (10_state.md R24). -/
theorem writeCmd_busy {s : State} (w : Word) (h : s.seq.phase = .busy) : writeCmd w s = .next { s with werr := true } := by
  rw [writeCmd, h]

/-- Presented to an Idle block, NOP leaves it Idle, so completion changes STATUS alone (R210). -/
theorem exec_nop_idle {s : State} (h : s.seq.phase = .idle) :
    exec .nop s = .next { s with doneFlag := true, err := .none, lastop := 0x0 } := by
  rw [exec, execNop, commandTurn_idle h, complete_presented_idle h]
  rfl

/-- Only NOP has OP 0, so every other word with that OP is illegal (30_encoding.md R84). -/
theorem illegalVariant_nop {w : Word} (hop : opField w = opcodeOf .nop) (hne : w ≠ encode .nop) : IllegalVariant 0x0 w :=
  illegalVariant_of_ne_encode (i := .nop) (by decide) hop hne

end Sys2Proof.Machine

open Sys2Proof Sys2Proof.Machine

/-- Settles O11: acceptance and completion of NOP are one move that leaves the phase Idle. -/
theorem nopOnlyWritesStatus : Obligations.NopOnlyWritesStatus := by
  refine ⟨rfl, fun s => exec_nop_idle, illegalVariant_nop rfl (by decide), illegalVariant_nop rfl (by decide),
    illegalVariant_nop rfl (by decide), fun s => writeCmd_busy _, fun s t hidle hie ht => ?_, fun t ht => ?_⟩
  · cases (exec_nop_idle hidle).symm.trans ht
    exact hie
  · cases (exec_nop_idle rfl).symm.trans ht
    rfl
end

section
/-! The words written to CMD and the errors a command can leave (60_exceptions.md R220 to R238): presentation decides at once
between completion and acceptance, nothing stops the machine, and the interrupt follows DONE. -/

namespace Sys2Proof.Machine

/-! ## An Idle block's own turns -/

theorem completeTurn_idle {s : State} (h : s.seq.phase = .idle) : completeTurn s = .next s := by
  rw [completeTurn, h]

theorem transferTurn_idle {s : State} (h : s.seq.phase = .idle) : transferTurn s = .next s := by
  rw [transferTurn, h]

theorem tickTurn_idle {s : State} (h : s.seq.phase = .idle) : tickTurn s = s := by
  rw [tickTurn, h]

/-! ## A command presented to an Idle block -/

/-- `t` is `s` after the acceptance of command `i`: STATUS, the sequencer and, for PULSE, the port are all that differs
(R225). -/
def AcceptedFrom (i : Instr) (s t : State) : Prop :=
  ∃ (q : Seq) (p : Port),
    t = { s with doneFlag := false, err := .none, lastop := opcodeOf i, seq := q, port := p } ∧
      q.phase = .busy ∧ q.op = opcodeOf i ∧ q.tsel = tselOf i ∧ (i ≠ .pulse → p = s.port)

theorem AcceptedAs.acceptedFrom {i : Instr} {s t : State} (h : AcceptedAs (opcodeOf i) (tselOf i) s t) :
    AcceptedFrom i s t := by
  obtain ⟨q, rfl, hphase, hop, htsel⟩ := h
  exact ⟨q, s.port, rfl, hphase, hop, htsel, fun _ => rfl⟩

theorem exec_pulse_acceptedFrom {s : State} (h : s.seq.phase = .idle) :
    ∃ t, exec .pulse s = .next t ∧ AcceptedFrom .pulse s t := by
  obtain ⟨hphase, hop, htsel, -⟩ := accept_latched .pulse s
  exact ⟨_, exec_pulse_idle h, _, _, rfl, hphase, hop, htsel, fun hp => absurd rfl hp⟩

/-- Beside NOP and a BUILD whose button is refused, every command presented to an Idle block is accepted. -/
theorem exec_idle_acceptedFrom {i : Instr} {s : State} (h : s.seq.phase = .idle) (hn : i ≠ .nop)
    (hbutton : i = .build → buttonRefused cfg s.button = false) : ∃ t, exec i s = .next t ∧ AcceptedFrom i s t := by
  by_cases hp : i = .pulse
  · subst hp
    exact exec_pulse_acceptedFrom h
  by_cases hb : i = .build
  · subst hb
    exact ⟨_, exec_build_accepted h (hbutton rfl), (accept_acceptedAs .build s).acceptedFrom⟩
  obtain ⟨t, ht, ha⟩ := exec_idle_accepted hn hb hp h
  exact ⟨t, ht, ha.acceptedFrom⟩

/-- Presented to an Idle block, a command completes at once as NOP or as a refused BUILD, or it is accepted (R225). -/
theorem exec_idle_outcome (i : Instr) {s : State} (h : s.seq.phase = .idle) :
    (i = .nop ∧ exec i s = .next { s with doneFlag := true, err := .none, lastop := 0x0 }) ∨
    (i = .build ∧ buttonRefused cfg s.button = true ∧
      exec i s = .next { s with doneFlag := true, err := .invalidButton, lastop := 0x9 }) ∨
    (∃ t, exec i s = .next t ∧ AcceptedFrom i s t) := by
  by_cases hn : i = .nop
  · subst hn
    exact .inl ⟨rfl, exec_nop_idle h⟩
  by_cases hb : i = .build ∧ buttonRefused cfg s.button = true
  · obtain ⟨rfl, hrefused⟩ := hb
    exact .inr (.inl ⟨rfl, hrefused, exec_build_refused h hrefused⟩)
  · exact .inr (.inr (exec_idle_acceptedFrom h hn fun hi => Bool.eq_false_iff.2 fun hr => hb ⟨hi, hr⟩))

/-! ## A word written to CMD -/

theorem busWrite_cmd (w : Word) (s : State) : busWrite Reg.cmd.offset w s = writeCmd w { s with reply := .written } := by
  rw [busWrite, regAt_offset]

theorem tselField_encode (i : Instr) : tselField (encode i) = tselOf i := by
  cases i with
  | scrL t | scrR t => cases t <;> rfl
  | _ => rfl

/-- An illegal word presented to an Idle block completes at once and writes STATUS alone (R221). -/
theorem writeCmd_idle_illegal {w : Word} {s : State} (h : s.seq.phase = .idle) (hw : legal w = false) :
    writeCmd w s = .next { s with doneFlag := true, err := .illegalCmd, lastop := opField w } := by
  obtain ⟨-, hpresent⟩ := illegalVariant_of_not_legal hw
  rw [writeCmd, h]
  exact hpresent s h

/-- A legal word presented to an Idle block is the encoding of the command it runs. -/
theorem writeCmd_idle_encoded {w : Word} {s : State} (h : s.seq.phase = .idle) (hw : legal w = true) :
    ∃ i, w = encode i ∧ writeCmd w s = exec i s := by
  obtain ⟨i, hi⟩ := legal_iff_decodes.1 hw
  exact ⟨i, decodeWord_eq_ok_iff.1 hi, writeCmd_idle_legal h hi⟩

/-- A command's word written to CMD of an Idle block runs that command (10_state.md R24). -/
theorem busWrite_encode (i : Instr) {s : State} (h : s.seq.phase = .idle) :
    busWrite Reg.cmd.offset (encode i) s = exec i { s with reply := .written } :=
  (busWrite_cmd _ s).trans (writeCmd_idle_legal h (decodeWord_encode i))

/-! ## Every move answers a next state -/

theorem exec_total (i : Instr) (s : State) : ∃ t, exec i s = .next t := by
  cases hphase : s.seq.phase with
  | idle =>
    obtain ⟨-, e⟩ | ⟨-, -, e⟩ | ⟨t, e, -⟩ := exec_idle_outcome i hphase
    · exact ⟨_, e⟩
    · exact ⟨_, e⟩
    · exact ⟨t, e⟩
  | busy =>
    by_cases hp : i = .pulse
    · subst hp
      exact ⟨_, exec_pulse_busy hphase⟩
    · obtain ⟨t, e, -⟩ := exec_busy hphase hp
      exact ⟨t, e⟩

theorem writeCmd_total (w : Word) (s : State) : ∃ t, writeCmd w s = .next t := by
  cases hphase : s.seq.phase with
  | busy => exact ⟨_, writeCmd_busy w hphase⟩
  | idle =>
    cases hw : legal w with
    | false => exact ⟨_, writeCmd_idle_illegal hphase hw⟩
    | true =>
      obtain ⟨i, -, e⟩ := writeCmd_idle_encoded hphase hw
      rw [e]
      exact exec_total i s

/-- A bus fault is recorded and answered, and the machine goes on (R232). -/
theorem access_total (a : BusAccess) (s : State) : ∃ t, access a s = .next t := by
  unfold access
  split
  · split
    · unfold busWrite
      split
      · exact ⟨_, rfl⟩
      · exact writeCmd_total _ _
      · exact ⟨_, rfl⟩
    · exact ⟨_, rfl⟩
  · exact ⟨_, rfl⟩

theorem hostTurn_total (s : State) : ∃ t, hostTurn s = .next t := by
  unfold hostTurn
  split
  next => exact ⟨_, rfl⟩
  next => exact access_total _ _
  next => exact ⟨_, rfl⟩
  next => exact ⟨_, rfl⟩

theorem takeTurn_total (turn : Turn) (s : State) : ∃ t, takeTurn turn s = .next t := by
  cases turn with
  | host => exact hostTurn_total s
  | complete =>
    obtain ⟨i, -, -, -, e⟩ | ⟨-, e⟩ := completeTurn_cases s
    · exact (exec_total i s).imp fun _ => e.trans
    · exact ⟨_, e⟩
  | transfer => obtain ⟨-, -, e⟩ | e := transferTurn_cases s <;> exact ⟨_, e⟩
  | tick | hardReset | hostInReset => exact ⟨_, rfl⟩

/-! ## The errors a command can leave -/

/-- A decode that leaves an error has failed the redundancy check on the STATE it leaves (R223). -/
theorem commitDecoded_err {ser0 : Byte} {K : KeyTable} {D : CState} {s : State}
    (h : (commitDecoded (decodedOf ser0 K D) s).err ≠ .none) :
    (commitDecoded (decodedOf ser0 K D) s).err = .integrity ∧
      integrityOk ser0 (le4 (commitDecoded (decodedOf ser0 K D) s).cstate) = false := by
  cases hok : (decodedOf ser0 K D).ok with
  | true =>
    rw [commitDecoded_ok hok] at h
    exact absurd rfl h
  | false =>
    rw [commitDecoded_failed hok]
    refine ⟨rfl, ?_⟩
    rw [complete_cstate, le4_unle4]
    exact hok

/-- A transfer leaves ERR as it is or, at the last record, NONE. -/
theorem transfer_err {s : State} (h : s.err = .none) : (transfer s).err = .none := by
  obtain ⟨-, e⟩ | ⟨r, -, -, e⟩ | ⟨r, -, -, e⟩ := transfer_cases s <;> rw [e]
  · exact h
  · exact h
  · rfl

/-- Beside the decoders no command fails at its completion (R222). -/
theorem exec_busy_err_of_not_decoder {i : Instr} {s t : State} (hd : i ≠ .decPayload) (hd' : i ≠ .decode) (h : Inv s)
    (hb : s.seq.phase = .busy) (ht : exec i s = .next t) : t.err = .none := by
  cases i with
  | nop => cases (exec_nop_busy hb).symm.trans ht; rfl
  | stdEnc => cases (exec_stdEnc_busy hb).symm.trans ht; rfl
  | stdDec => cases (exec_stdDec_busy hb).symm.trans ht; rfl
  | derive => cases (exec_derive_busy hb).symm.trans ht; rfl
  | expand => cases (exec_expand_busy hb).symm.trans ht; rfl
  | scrL t => cases (exec_scrL_busy t hb).symm.trans ht; rfl
  | scrR t => cases (exec_scrR_busy t hb).symm.trans ht; rfl
  | encPayload => cases (exec_encPayload_busy hb).symm.trans ht; rfl
  | build => cases (exec_build_busy hb).symm.trans ht; rfl
  | decPayload => exact absurd rfl hd
  | decode => exact absurd rfl hd'
  | pulse =>
    obtain ⟨-, hbusy, -⟩ := h
    obtain ⟨-, herr, -⟩ := hbusy hb
    cases (exec_pulse_busy hb).symm.trans ht
    exact transfer_err herr

/-- A decoder that leaves an error leaves INTEGRITY, with the STATE that failed the check (R223). -/
theorem exec_decoder_busy_err {i : Instr} {s t : State} (hi : i = .decPayload ∨ i = .decode) (hb : s.seq.phase = .busy)
    (ht : exec i s = .next t) (herr : t.err ≠ .none) :
    t.err = .integrity ∧ integrityOk (s.serial.extractLsb' 0 8) (le4 t.cstate) = false := by
  obtain rfl | rfl := hi
  · cases (exec_decPayload_busy hb).symm.trans ht
    exact commitDecoded_err herr
  · cases (exec_decode_busy hb).symm.trans ht
    exact commitDecoded_err herr

/-- At acceptance a command can only fail as a BUILD whose button is refused (R222, R224). -/
theorem exec_idle_err {i : Instr} {s t : State} (h : s.seq.phase = .idle) (ht : exec i s = .next t) (herr : t.err ≠ .none) :
    i = .build ∧ buttonRefused cfg s.button = true := by
  obtain ⟨-, e⟩ | ⟨hi, hrefused, -⟩ | ⟨u, e, q, p, rfl, -⟩ := exec_idle_outcome i h
  · cases e.symm.trans ht
    exact absurd rfl herr
  · exact ⟨hi, hrefused⟩
  · cases e.symm.trans ht
    exact absurd rfl herr

/-- The two ways in which a command fails: BUILD at acceptance, a decoder at completion (R222). -/
theorem exec_err_cases {i : Instr} {s t : State} (h : Inv s) (ht : exec i s = .next t) (herr : t.err ≠ .none) :
    (i = .build ∧ s.seq.phase = .idle ∧ buttonRefused cfg s.button = true ∧
      t = { s with doneFlag := true, err := .invalidButton, lastop := 0x9 }) ∨
    ((i = .decPayload ∨ i = .decode) ∧ s.seq.phase = .busy ∧ t.err = .integrity ∧
      integrityOk (s.serial.extractLsb' 0 8) (le4 t.cstate) = false) := by
  cases hphase : s.seq.phase with
  | idle =>
    obtain ⟨rfl, hrefused⟩ := exec_idle_err hphase ht herr
    cases (exec_build_refused hphase hrefused).symm.trans ht
    exact .inl ⟨rfl, rfl, hrefused, rfl⟩
  | busy =>
    by_cases hi : i = .decPayload ∨ i = .decode
    · exact .inr ⟨hi, rfl, exec_decoder_busy_err hi hphase ht herr⟩
    · obtain ⟨hd, hd'⟩ := not_or.1 hi
      exact absurd (exec_busy_err_of_not_decoder hd hd' h hphase ht) herr

/-! ## The interrupt -/

theorem irq_of_not_done {s : State} (h : s.doneFlag = false) : s.irq = false := by
  rw [State.irq, h, Bool.false_and]

theorem irq_of_done {s : State} (h : s.doneFlag = true) : s.irq = s.doneIe := by
  rw [State.irq, h, Bool.true_and]

theorem irq_of_disabled {s : State} (h : s.doneIe = false) : s.irq = false := by
  rw [State.irq, h, Bool.and_false]

theorem CompletesInto.done {s t : State} (h : CompletesInto s t) : t.doneFlag = true := by
  rw [h]
  rfl

/-- An error is a completion: DONE is set (R226). -/
theorem exec_err_done {i : Instr} {s t : State} (h : Inv s) (ht : exec i s = .next t) (herr : t.err ≠ .none) :
    t.doneFlag = true := by
  obtain ⟨-, -, -, rfl⟩ | ⟨hi, hb, -⟩ := exec_err_cases h ht herr
  · rfl
  · have hp : i ≠ .pulse := by rintro rfl; simp at hi
    obtain ⟨u, hu, hc⟩ := exec_busy hb hp
    cases hu.symm.trans ht
    exact hc.done

/-- A command that leaves an Idle block Busy has been accepted, which clears DONE. -/
theorem exec_accepted_not_done {i : Instr} {s t : State} (h : s.seq.phase = .idle) (ht : exec i s = .next t)
    (hb : t.seq.phase = .busy) : t.doneFlag = false := by
  obtain ⟨-, e⟩ | ⟨-, -, e⟩ | ⟨u, e, q, p, rfl, -⟩ := exec_idle_outcome i h <;> cases e.symm.trans ht
  · cases h.symm.trans hb
  · cases h.symm.trans hb
  · rfl

/-- DONE_IE is off after a write of 0 to it, and after a soft reset whatever the write holds (10_state.md R26). -/
theorem writeCtrl_disables {v : Word} (h : v.getLsbD 0 = false) (s : State) : (writeCtrl v s).doneIe = false := by
  cases hv : v.getLsbD 1 with
  | true => rw [writeCtrl_softReset hv]; rfl
  | false => rw [writeCtrl_keeps hv]; exact h

end Sys2Proof.Machine

open Sys2Proof Sys2Proof.Machine

/-- Settles O7: a Busy block drops the word before it is decoded; presented to an Idle one, it is illegal or the encoding of a
command, which completes at once or is accepted. -/
theorem commandWordIsAcceptedAsWritten : Obligations.CommandWordIsAcceptedAsWritten := by
  intro w s
  refine ⟨fun hb => (busWrite_cmd w s).trans (writeCmd_busy w hb),
    fun hi hw => (busWrite_cmd w s).trans (writeCmd_idle_illegal hi hw), fun hi hw => ?_, fun hi hw hbutton => ?_,
    fun hi hw hne hbutton => ?_⟩
  · subst hw
    exact (busWrite_encode .nop hi).trans (exec_nop_idle (s := { s with reply := .written }) hi)
  · subst hw
    exact (busWrite_encode .build hi).trans
      (exec_build_refused (s := { s with reply := .written }) hi (buttonRefused_cfg_iff.2 hbutton))
  · obtain ⟨i, rfl, -⟩ := writeCmd_idle_encoded hi hw
    have hn : i ≠ .nop := by rintro rfl; exact hne rfl
    have hvalid (hb : i = .build) : buttonRefused cfg s.button = false :=
      buttonRefused_cfg_eq_false_iff.2 (hbutton (congrArg encode hb))
    obtain ⟨t, ht, q, p, rfl, hphase, hop, htsel, hport⟩ :=
      exec_idle_acceptedFrom (s := { s with reply := .written }) hi hn hvalid
    have hlastop : (encode i).extractLsb' 0 4 = opcodeOf i := opField_encode i
    rw [hlastop]
    exact ⟨q, p, (busWrite_encode i hi).trans ht, hphase, hop, htsel.trans (tselField_encode i).symm,
      fun hne => hport fun hp => hne (congrArg encode hp)⟩

/-- Settles O9: a step is a turn, and every turn answers. -/
theorem noStepStopsTheMachine : Obligations.NoStepStopsTheMachine := by
  refine ⟨exec_total, fun s => ?_⟩
  rw [step_eq_takeTurn]
  exact takeTurn_total _ _

/-- Settles O10, by the two ways in which a command fails. -/
theorem onlyBuildAndDecodersFailOnData : Obligations.OnlyBuildAndDecodersFailOnData := by
  intro i s t h ht herr
  refine (exec_err_cases h ht herr).imp_left ?_
  rintro ⟨hi, hidle, hrefused, rfl⟩
  exact ⟨hi, hidle, rfl, buttonRefused_cfg_iff.1 hrefused⟩

/-- Settles O48: each way in which irq falls clears DONE or DONE_IE, and every error is a completion, which sets DONE. -/
theorem interruptFollowsDone : Obligations.InterruptFollowsDone := by
  refine fun s => ⟨rfl, fun v t hv ht => ?_, fun v t hv ht => ?_, fun w t hi hw ht hb => ?_, irq_of_not_done rfl,
    fun i t h ht herr => ?_, fun w t hi hw ht => ?_⟩
  · cases (access_writeStatus v s).symm.trans ht
    exact irq_of_not_done (by rw [writeStatus_doneFlag, hv, Bool.not_true, Bool.and_false])
  · cases (access_writeCtrl v s).symm.trans ht
    exact irq_of_disabled (writeCtrl_disables hv _)
  · obtain ⟨i, -, e⟩ := writeCmd_idle_encoded hi hw
    exact irq_of_not_done (exec_accepted_not_done hi (e.symm.trans ht) hb)
  · obtain ⟨⟨-, -, -, -, -, hdoneIe, -⟩, -⟩ := exec_sequencerFrame ht
    rw [irq_of_done (exec_err_done h ht herr), hdoneIe]
  · cases (writeCmd_idle_illegal hi hw).symm.trans ht
    exact irq_of_done rfl

/-- Settles O51: without a running command no turn of the sequencer is enabled. -/
theorem idleBlockDoesNotMove : Obligations.IdleBlockDoesNotMove := by
  refine ⟨fun s turn ts hi hturns hturn => ?_, fun s hi hturns => ?_⟩
  · rw [step, hturns]
    obtain rfl | rfl | rfl := hturn
    · exact completeTurn_idle hi
    · exact congrArg Host.Outcome.next (tickTurn_idle hi)
    · exact transferTurn_idle hi
  · rw [step, hturns]
    exact completeTurn_idle hi
end

section
/-! The write sets of the commands, and what acceptance and completion leave as it was (70_reset_and_hazards.md R271). -/

namespace Sys2Proof.Machine

/-! ## Registers beside STATUS -/

/-- Every register but STATUS is read from fields that neither acceptance nor a transfer writes. -/
theorem readReg_update {r : Reg} (h : r ≠ .status) (s : State) (doneFlag : Bool) (err : ErrCode) (lastop : BitVec 4)
    (seq : Seq) (port : Port) (out : List Record) :
    State.readReg
        { s with doneFlag := doneFlag, err := err, lastop := lastop, seq := seq, port := port, out := out } r =
      s.readReg r := by
  cases r with
  | status => exact absurd rfl h
  | _ => rfl

theorem exec_idle_readReg {i : Instr} {s t : State} {r : Reg} (hi : s.seq.phase = .idle) (ht : exec i s = .next t)
    (h : r ≠ .status) : t.readReg r = s.readReg r := by
  obtain ⟨code, rfl⟩ | ⟨-, -, -, rfl⟩ | ⟨-, rfl⟩ := exec_idle_cases hi ht <;> exact readReg_update h s ..

theorem transfer_readReg {r : Reg} (h : r ≠ .status) (s : State) : (transfer s).readReg r = s.readReg r := by
  obtain ⟨-, e⟩ | ⟨x, -, -, e⟩ | ⟨x, -, -, e⟩ := transfer_cases s <;> rw [e] <;> exact readReg_update h s ..

/-! ## Each commit's frame -/

section
variable {r : Reg} (s : State)

theorem commitBlock_readReg (h : r ∉ [Reg.status, .block]) (v : Word) : (commitBlock v s).readReg r = s.readReg r := by
  cases r with
  | status | block => simp at h
  | _ => rfl

theorem commitDkey_readReg (h : r ∉ [Reg.status, .dkeyLo, .dkeyHi]) (k : DWord) :
    (commitDkey k s).readReg r = s.readReg r := by
  cases r with
  | status | dkeyLo | dkeyHi => simp at h
  | _ => rfl

theorem commitScramble_readReg (h : r ∉ [Reg.status, .state]) (S : CState) :
    (commitScramble S s).readReg r = s.readReg r := by
  cases r with
  | status | state => simp at h
  | _ => rfl

theorem commitExpand_readReg (h : r ∉ [Reg.status, .kt0, .kt1, .kt2, .kt3, .state]) (K : KeyTable) :
    (commitExpand K s).readReg r = s.readReg r := by
  cases r with
  | status | kt0 | kt1 | kt2 | kt3 | state => simp at h
  | _ => rfl

theorem commitEncPayload_readReg (h : r ∉ [Reg.status, .kt0, .kt1, .kt2, .kt3, .state, .block]) (K : KeyTable)
    (C : CState) : (commitEncPayload K C s).readReg r = s.readReg r := by
  cases r with
  | status | kt0 | kt1 | kt2 | kt3 | state | block => simp at h
  | _ => rfl

theorem commitDecoded_readReg (h : r ∉ [Reg.status, .kt0, .kt1, .kt2, .kt3, .state, .decres]) (d : Decoded) :
    (commitDecoded d s).readReg r = s.readReg r := by
  cases hok : d.ok with
  | true =>
    rw [commitDecoded_ok hok]
    cases r with
    | status | kt0 | kt1 | kt2 | kt3 | state | decres => simp at h
    | _ => rfl
  | false =>
    rw [commitDecoded_failed hok]
    cases r with
    | status | kt0 | kt1 | kt2 | kt3 | state => simp at h
    | _ => rfl

theorem commitBuild_readReg (h : r ∉ [Reg.status, .kt0, .kt1, .kt2, .kt3, .state, .payload0, .payload1, .payload2])
    (K : KeyTable) (C : CState) (P : PayloadBytes) : (commitBuild K C P s).readReg r = s.readReg r := by
  cases r with
  | status | kt0 | kt1 | kt2 | kt3 | state | payload0 | payload1 | payload2 => simp at h
  | _ => rfl

end

/-! ## Each command's frame -/

/-- Completion of a command leaves the registers outside its write set and STATUS. -/
theorem exec_busy_readReg {i : Instr} {s t : State} {r : Reg} (hb : s.seq.phase = .busy) (ht : exec i s = .next t)
    (hr : r ∉ writeSet i) (hstatus : r ≠ .status) : t.readReg r = s.readReg r := by
  have h : r ∉ Reg.status :: writeSet i := by simp [hr, hstatus]
  cases i with
  | nop => cases (exec_nop_busy hb).symm.trans ht; exact readReg_update hstatus s ..
  | stdEnc => cases (exec_stdEnc_busy hb).symm.trans ht; exact commitBlock_readReg s h _
  | stdDec => cases (exec_stdDec_busy hb).symm.trans ht; exact commitBlock_readReg s h _
  | derive =>
    cases (exec_derive_busy hb).symm.trans ht
    rw [← commitDkey_append]
    exact commitDkey_readReg s h _
  | expand => cases (exec_expand_busy hb).symm.trans ht; exact commitExpand_readReg s h _
  | scrL x => cases (exec_scrL_busy x hb).symm.trans ht; exact commitScramble_readReg s h _
  | scrR x => cases (exec_scrR_busy x hb).symm.trans ht; exact commitScramble_readReg s h _
  | encPayload => cases (exec_encPayload_busy hb).symm.trans ht; exact commitEncPayload_readReg s h _ _
  | decPayload => cases (exec_decPayload_busy hb).symm.trans ht; exact commitDecoded_readReg s h _
  | build => cases (exec_build_busy hb).symm.trans ht; exact commitBuild_readReg s h _ _ _
  | decode => cases (exec_decode_busy hb).symm.trans ht; exact commitDecoded_readReg s h _
  | pulse => cases (exec_pulse_busy hb).symm.trans ht; exact transfer_readReg hstatus s

theorem transfer_outside (s : State) :
    (transfer s).faults = s.faults ∧ (transfer s).host = s.host ∧ (transfer s).turns = s.turns ∧
      (transfer s).lastop = s.lastop := by
  obtain ⟨-, e⟩ | ⟨x, -, -, e⟩ | ⟨x, -, -, e⟩ := transfer_cases s <;> rw [e] <;> exact ⟨rfl, rfl, rfl, rfl⟩

theorem CompletesInto.outside {s t : State} (h : CompletesInto s t) :
    t.faults = s.faults ∧ t.host = s.host ∧ t.turns = s.turns ∧ t.lastop = s.lastop ∧ t.out = s.out := by
  rw [h]
  exact ⟨rfl, rfl, rfl, rfl, rfl⟩

/-- A command moves neither the fault set nor what the host and the schedule hold, and it reaches the sink as PULSE alone. -/
theorem exec_outside {i : Instr} {s t : State} (ht : exec i s = .next t) :
    t.faults = s.faults ∧ t.host = s.host ∧ t.turns = s.turns ∧ (i ≠ .pulse → t.out = s.out) ∧
      (s.seq.phase = .busy → t.lastop = s.lastop) := by
  cases hphase : s.seq.phase with
  | idle =>
    obtain ⟨code, rfl⟩ | ⟨-, -, -, rfl⟩ | ⟨-, rfl⟩ := exec_idle_cases hphase ht <;>
      exact ⟨rfl, rfl, rfl, fun _ => rfl, nofun⟩
  | busy =>
    by_cases hp : i = .pulse
    · subst hp
      cases (exec_pulse_busy hphase).symm.trans ht
      obtain ⟨hfaults, hhost, hturns, hlastop⟩ := transfer_outside s
      exact ⟨hfaults, hhost, hturns, fun h => absurd rfl h, fun _ => hlastop⟩
    · obtain ⟨u, hu, hc⟩ := exec_busy hphase hp
      cases hu.symm.trans ht
      obtain ⟨hfaults, hhost, hturns, hlastop, hout⟩ := hc.outside
      exact ⟨hfaults, hhost, hturns, fun _ => hout, fun _ => hlastop⟩

end Sys2Proof.Machine

open Sys2Proof Sys2Proof.Machine

/-- Settles O8: the table is the definition of the write sets, and each commit leaves the registers outside its own. -/
theorem commandWritesOnlyItsWriteSet : Obligations.CommandWritesOnlyItsWriteSet := by
  refine ⟨⟨rfl, rfl, rfl, rfl, rfl, rfl, fun _ => rfl, fun _ => rfl, rfl, rfl, rfl, rfl⟩, fun i s t ht => ?_⟩
  obtain ⟨⟨-, -, -, -, -, hdoneIe, hwerr, -⟩, -⟩ := exec_sequencerFrame ht
  obtain ⟨hfaults, hhost, hturns, hout, hlastop⟩ := exec_outside ht
  exact ⟨fun hb _ hr hstatus => exec_busy_readReg hb ht hr hstatus, fun hi _ hstatus => exec_idle_readReg hi ht hstatus,
    hwerr, hdoneIe, hfaults, hhost, hturns, hout, hlastop⟩
end

section
/-! Reset, and what the host meets while a command runs: the sequencer's turns, dropped writes, reads that are draws, and a
PULSE that no transfer moves (70_reset_and_hazards.md R260 to R263, R270 to R275). -/

namespace Sys2Proof.Machine

/-! ## The turns of a running command -/

theorem completeTurn_running {i : Instr} {s : State} (hb : s.seq.phase = .busy) (hi : s.running = some i)
    (hp : i ≠ .pulse) : completeTurn s = exec i s := by
  simp only [completeTurn, hb, hi, if_neg hp]

/-- Complete is not enabled for PULSE (R273). -/
theorem completeTurn_pulse {s : State} (hi : s.running = some .pulse) : completeTurn s = .next s := by
  obtain ⟨i, -, hi', hp, -⟩ | ⟨-, e⟩ := completeTurn_cases s
  · cases hi.symm.trans hi'
    exact absurd rfl hp
  · exact e

theorem transferTurn_pulse {s : State} (hb : s.seq.phase = .busy) (hi : s.running = some .pulse) :
    transferTurn s = exec .pulse s := by
  simp only [transferTurn, hb, hi, if_true]

theorem tickTurn_running {i : Instr} {s : State} (hb : s.seq.phase = .busy) (hi : s.running = some i) :
    tickTurn s = cycle i s := by
  simp only [tickTurn, hb, hi]

/-! ## Writes while a command runs -/

theorem writeReg_dropped {r : Reg} {s : State} (hb : s.seq.phase = .busy) (hg : r.guarded = true) (v : Word) :
    writeReg r v s = { s with werr := true } := by
  obtain ⟨rfl, -⟩ | ⟨rfl, -⟩ | ⟨-, -, e⟩ | ⟨h, -⟩ := writeReg_cases r v s
  · cases hg
  · cases hg
  · exact e
  · rw [hg, busy_eq_true.2 hb] at h
    simp at h

/-- A write to CMD or a data register is dropped with WERR (R270). -/
theorem access_write_dropped {r : Reg} {s : State} (hb : s.seq.phase = .busy) (hg : r.guarded = true) (v : Word) :
    access ⟨true, r.offset, 0b1111, v⟩ s = .next { s with reply := .written, werr := true } := by
  by_cases hcmd : r = .cmd
  · subst hcmd
    exact (access_writeCmd v s).trans (writeCmd_busy v hb)
  · have hdropped := writeReg_dropped (s := { s with reply := .written }) hb hg v
    rw [access_writeReg hcmd, hdropped]

/-- A write to a read-only register changes nothing, Busy or not (R270). -/
theorem access_write_readOnly {r : Reg} (hr : r ∈ [Reg.decres, .kt0, .kt1, .kt2, .kt3]) (v : Word) (s : State) :
    access ⟨true, r.offset, 0b1111, v⟩ s = .next { s with reply := .written } := by
  have hkinds : ∀ r ∈ [Reg.decres, .kt0, .kt1, .kt2, .kt3], r.guarded = false ∧ r ≠ .cmd ∧ r ≠ .status ∧ r ≠ .ctrl := by
    decide
  obtain ⟨hg, hcmd, hstatus, hctrl⟩ := hkinds r hr
  rw [access_write_notDropped (.inr hg) hcmd hstatus hctrl, writeData_of_not_guarded hg]

/-! ## Reads while a command runs -/

theorem access_readReg_draw {r : Reg} {s : State} (h : s.unreadable r = true) (v : Word) :
    access ⟨false, r.offset, 0b1111, v⟩ s =
      .next { s with reply := .data (Config.freeRead s.draws), draws := s.draws + 1 } := by
  rw [access_read (offset_aligned r)]
  simp only [busRead, regAt_offset, h, if_true]

theorem access_readReg {r : Reg} {s : State} (h : s.unreadable r = false) (v : Word) :
    access ⟨false, r.offset, 0b1111, v⟩ s = .next { s with reply := .data (s.readReg r) } := by
  rw [access_read (offset_aligned r)]
  simp [busRead, h]

/-- A read while a command runs is a draw exactly in its write set (R272). -/
theorem unreadable_running_iff {i : Instr} {s : State} (hb : s.seq.phase = .busy) (hi : s.running = some i) (r : Reg) :
    s.unreadable r = true ↔ r ∈ writeSet i := by
  simp [unreadable_iff, hb, hi]

/-! ## A PULSE without a transfer -/

/-- No access but a soft reset moves a running command (R270). -/
theorem access_busy_keepsSeq {a : BusAccess} {s t : State} (hb : s.seq.phase = .busy)
    (hreset : ¬(a.we = true ∧ a.addr = Reg.ctrl.offset ∧ a.wdata.getLsbD 1 = true)) (h : access a s = .next t) :
    t.seq = s.seq ∧ t.port = s.port ∧ t.out = s.out := by
  cases access_move h with
  | refused => rw [refuseAccess_eq]; exact ⟨rfl, rfl, rfl⟩
  | read => obtain ⟨v, e⟩ | e := busRead_cases a.addr s <;> rw [e] <;> exact ⟨rfl, rfl, rfl⟩
  | reserved => exact ⟨rfl, rfl, rfl⟩
  | command _ _ _ hc =>
    cases (writeCmd_busy (s := { s with reply := .written }) a.wdata hb).symm.trans hc
    exact ⟨rfl, rfl, rfl⟩
  | @register r _ hw ha =>
    obtain ⟨-, e⟩ | ⟨rfl, e⟩ | ⟨-, -, e⟩ | ⟨-, e⟩ := writeReg_cases r a.wdata { s with reply := .written } <;> rw [e]
    · exact ⟨rfl, rfl, rfl⟩
    · rw [writeCtrl_keeps (Bool.eq_false_iff.2 fun hv => hreset ⟨hw, ha, hv⟩)]
      exact ⟨rfl, rfl, rfl⟩
    · exact ⟨rfl, rfl, rfl⟩
    · obtain ⟨hseq, hport, -, -, -, -, -, -, -, -, hout, -⟩ := writeData_keeps r a.wdata { s with reply := .written }
      exact ⟨hseq, hport, hout⟩

/-- Of the turns at a running PULSE only a transfer and a reset, hard or soft, move it (R275). -/
theorem takeTurn_pulse_keepsSeq {turn : Turn} {s t : State} (hb : s.seq.phase = .busy) (hi : s.running = some .pulse)
    (hturn : turn ∈ [Turn.complete, .tick, .host])
    (hreset : ∀ a hs, s.host = .bus a :: hs → ¬(a.we = true ∧ a.addr = Reg.ctrl.offset ∧ a.wdata.getLsbD 1 = true))
    (h : takeTurn turn s = .next t) : t.seq = s.seq ∧ t.port = s.port ∧ t.out = s.out := by
  cases turn with
  | complete => cases (completeTurn_pulse hi).symm.trans h; exact ⟨rfl, rfl, rfl⟩
  | tick => cases h; rw [tickTurn_running hb hi]; exact ⟨rfl, rfl, rfl⟩
  | host =>
    obtain ⟨a, rest, hhost, ha⟩ | ⟨hs, rep, n, rfl⟩ := hostTurn_cases h
    · exact access_busy_keepsSeq (s := { s with host := rest }) hb (hreset a rest hhost) ha
    · exact ⟨rfl, rfl, rfl⟩
  | transfer | hardReset | hostInReset => simp at hturn

/-! ## Reset -/

/-- A read presented in a reset edge returns 0 (R260). -/
theorem hostInReset_read {a : BusAccess} {hs : List HostAction} {s : State} (h : s.host = .bus a :: hs)
    (hw : a.we = false) : (hostInReset s).reply.rdata = some 0 := by
  simp [hostInReset, h, hw, Reply.rdata]

/-- What the host has left to do and what the bus answers are not the block's (assumption log 11). -/
theorem hostInReset_atReset (s : State) : AtReset (hostInReset s) := by
  obtain ⟨hs, rep, e⟩ := hostInReset_cases s
  rw [e]
  exact resetBlock_atReset { s with host := hs, reply := rep }

theorem reset_atReset : AtReset State.reset := resetBlock_atReset State.reset

/-! ## A command from acceptance to completion -/

theorem acceptedAs_of_exec {i : Instr} (hn : i ≠ .nop) (hb : i ≠ .build) (hp : i ≠ .pulse) {s t : State}
    (h : s.seq.phase = .idle) (ht : exec i s = .next t) : AcceptedAs (opcodeOf i) (tselOf i) s t := by
  obtain ⟨u, hu, ha⟩ := exec_idle_accepted hn hb hp h
  cases hu.symm.trans ht
  exact ha

/-- STD_ENC completes with the encryption of what BLOCK and KEY hold at acceptance. -/
theorem exec_stdEnc_run {s t u : State} (h : s.seq.phase = .idle) (ht : exec .stdEnc s = .next t)
    (hu : exec .stdEnc t = .next u) : u.block = stdEnc cfg s.block s.key := by
  obtain ⟨q, rfl, hb, -⟩ := acceptedAs_of_exec (by decide) (by decide) (by decide) h ht
  cases (exec_stdEnc_busy hb).symm.trans hu
  rfl

/-- EXPAND completes with the key table of what SERIAL and DKEY hold at acceptance. -/
theorem exec_expand_run {s t u : State} (h : s.seq.phase = .idle) (ht : exec .expand s = .next t)
    (hu : exec .expand t = .next u) : u.kt = expandKT cfg (serialBytes s.serial) (le8 s.dkey) := by
  obtain ⟨q, rfl, hb, -⟩ := acceptedAs_of_exec (by decide) (by decide) (by decide) h ht
  cases (exec_expand_busy hb).symm.trans hu
  rfl

end Sys2Proof.Machine

open Sys2Proof Sys2Proof.Machine

/-- Settles O40: such a turn leaves the sequencer as it is, so it does not end the command and its inputs stand. -/
theorem pulseWithoutTransferNeverCompletes : Obligations.PulseWithoutTransferNeverCompletes := by
  intro s t hb hi hturn hreset h
  rw [step_eq_takeTurn] at h
  have hturn' : s.turns.head?.getD .complete ∈ [Turn.complete, .tick, .host] := by
    revert hturn
    cases s.turns.head? <;> simp
  have hkept := takeTurn_pulse_keepsSeq (s := { s with turns := s.turns.tail }) hb hi hturn' hreset h
  obtain ⟨hseq, hport, hout⟩ := hkept
  have hb' : t.seq.phase = .busy := by rw [hseq]; exact hb
  have hkeeps : KeepsInputs s t :=
    (takeTurn_endsOrKeepsInputs (s := { s with turns := s.turns.tail }) hb h).resolve_left (by simp [hb'])
  refine ⟨hseq, hport, hout, fun r hg => hkeeps.readReg ?_ ?_⟩ <;> rintro rfl <;> cases hg

/-- Settles O42: the drop of guarded writes, and for the other offsets what their writes do in every state. -/
theorem writesAreDroppedWhileBusy : Obligations.WritesAreDroppedWhileBusy := by
  intro s v
  refine ⟨fun hb => ⟨fun r hr => access_write_dropped hb ?_ v, access_writeStatus v s, fun hv => ?_, fun hv => ?_⟩,
    fun r hr => access_write_readOnly hr v s, fun off h ho => (access_reserved h ho v s).2⟩
  · revert r
    decide
  · exact (access_writeCtrl v s).trans (by rw [writeCtrl_keeps hv])
  · exact ⟨_, (access_writeCtrl v s).trans (by rw [writeCtrl_softReset hv]), resetBlock_atReset _⟩

/-- Settles O6: Complete and Transfer are enabled for the running command. -/
theorem stepRunsTheRunningCommand : Obligations.StepRunsTheRunningCommand := by
  refine fun s ts i hb hi => ⟨fun ht hp => ?_, fun ht hp => ?_, fun ht hp => ?_⟩
  · rw [step, ht]
    exact completeTurn_running (s := { s with turns := ts }) hb hi hp
  · subst hp
    rw [step, ht]
    exact transferTurn_pulse (s := { s with turns := ts }) hb hi
  · rw [step, ht]
    exact completeTurn_running hb hi hp

/-- Settles O43: the write set of the running command decides whether a read is a draw. -/
theorem readsWhileBusy : Obligations.ReadsWhileBusy := by
  intro s i r v hb hi
  have hdraw := unreadable_running_iff hb hi r
  obtain ⟨hbusy, -, -⟩ := statusWord_bits s
  exact ⟨fun hr => access_readReg_draw (hdraw.2 hr) v,
    fun hr => access_readReg (Bool.eq_false_iff.2 fun hu => hr (hdraw.1 hu)) v, hbusy.trans (busy_eq_true.2 hb)⟩

/-- Settles O49: the three resets leave `resetBlock` of the state, with the host's plan and the bus answer moved on. -/
theorem resetClearsTheBlock : Obligations.ResetClearsTheBlock := by
  refine ⟨fun s ts ht => ?_, fun s ts a hs ht hh => ?_, fun s v hv => ?_⟩
  · rw [step, ht]
    exact ⟨_, rfl, resetBlock_atReset _⟩
  · rw [step, ht]
    exact ⟨_, rfl, hostInReset_atReset _, hostInReset_read (s := { s with turns := ts }) hh⟩
  · exact ⟨_, resetBlock s, (access_writeCtrl v s).trans (congrArg Host.Outcome.next (writeCtrl_softReset hv _)), rfl, rfl,
      rfl⟩

/-- Settles O50: the registers hold 0 at acceptance, so completion computes on zero inputs. -/
theorem commandsComputeOnZeroAfterReset : Obligations.CommandsComputeOnZeroAfterReset := by
  refine ⟨reset_atReset, rfl, rfl, fun s t hs ht => (exec_stdEnc_run rfl hs ht).trans stdEnc_zero, fun s t hs ht => ?_⟩
  have hkt := (exec_expand_run rfl hs ht).trans expandKT_vector_zero
  simp only [State.readReg, hkt]
  exact ⟨rfl, rfl, rfl, rfl⟩

/-- Settles O56: reset leaves an Idle block with no record on offer and no fault recorded. -/
theorem invariantHoldsAtReset : Obligations.InvariantHoldsAtReset := (inv_idle_iff rfl).2 ⟨rfl, List.nodup_nil⟩
end

section
/-! The bit-serial schedule commits what the functional model's Complete commits, and takes the latencies of
70_reset_and_hazards.md R280 for it. -/

namespace Sys2Proof.Machine

/-! ## What the encrypt and the right pass compute -/

/-- An encrypt pass computes StdEnc. -/
theorem times_bitStep_enc (T : Table) (b : Word) (k : DWord) (q : Seq) :
    (times (bitStep .enc T) 528 (loadStd b k q)).blk = stdEnc cfg b k :=
  congrArg Prod.fst (times_stdCycle (encRound (encTaps cfg.stdTapReading)) 528 (loadStd b k q))

/-- A right pass from index 0 computes ShiftRight. -/
theorem times_bitStep_right (T : Table) (S : CState) (q : Seq) :
    (times (bitStep .right T) 528 (loadScramble S 0 q)).work = shiftRight cfg S T := by
  have hbit : bitStep .right T = scrambleBit (rightStep cfg.scrRight) (· + 1) T := rfl
  have hround : rightOuter cfg.scrRight T = outerRound (rightStep cfg.scrRight) (· + 1) T := rfl
  obtain ⟨h, -⟩ := times_scrambleBit_outer (rightStep cfg.scrRight) (· + 1) T (q := loadScramble S 0 q) rfl 66
  rw [show 8 * 66 = 528 from rfl] at h
  rw [shiftRight, hround, hbit]
  exact h

theorem bitStepped_blk_of_encPass {i : Instr} {s : State} {b : Word} {k : DWord} (hk : passKind i s.seq.pass = some .enc)
    (hr : s.seq.r = 527) (h : DatapathInv i s) (hload : loadPass i s.seq.pass s = loadStd b k) :
    (bitStepped i .enc s).seq.blk = stdEnc cfg b k := by
  rw [bitStepped_seq hk h, hr, hload]
  exact times_bitStep_enc ..

theorem bitStepped_work_of_rightPass {i : Instr} {s : State} {S : CState} (hk : passKind i s.seq.pass = some .right)
    (hr : s.seq.r = 527) (h : DatapathInv i s) (hload : loadPass i s.seq.pass s = loadScramble S 0) :
    (bitStepped i .right s).seq.work = shiftRight cfg S (passTable i s.seq.pass s s.seq) := by
  rw [bitStepped_seq hk h, hr, hload]
  exact times_bitStep_right ..

/-- Every command but NOP and PULSE runs its passes on the datapath. -/
theorem passKind_of_bitSerial {i : Instr} (hn : i ≠ .nop) (hp : i ≠ .pulse) (n : Fin 3) :
    ∃ kind, passKind i n = some kind := by
  cases i with
  | nop => exact absurd rfl hn
  | pulse => exact absurd rfl hp
  | encPayload | build => by_cases h : n = 2 <;> simp [passKind, h]
  | _ => exact ⟨_, rfl⟩

/-! ## The datapath after the last bit-step -/

section
variable {i : Instr} {s : State} {kind : PassKind}

/-- In the third pass of a payload command the two expansion results are the key table's. -/
theorem fillKT_of_thirdPass (hi : lastPass i = 2) (hp : s.seq.pass = 2) (hv : PassesInv i s) :
    fillKT cfg s.seq.half0 s.seq.half1 = expandKT cfg (serialBytes s.serial) (le8 s.dkey) := by
  obtain ⟨h0, h1⟩ := (passesInv_threePass hi s).1 hv
  rw [h0 (by rw [hp]; decide), h1 hp, expandKT]

/-- ENC_PAYLOAD and BUILD have scrambled the seed rightward under their half of that table (R139). -/
theorem bitStepped_work_of_encryption (hi : i = .encPayload ∨ i = .build) (hp : s.seq.pass = 2) (hr : s.seq.r = 527)
    (h : DatapathInv i s) :
    (bitStepped i .right s).seq.work =
      (encPayload cfg (serialBytes s.serial) s.counter s.button (le8 s.dkey)).2 := by
  obtain ⟨-, hv, -⟩ := id h
  have hthree : lastPass i = 2 := by obtain rfl | rfl := hi <;> rfl
  have hk : passKind i 2 = some .right := by obtain rfl | rfl := hi <;> rfl
  have hload : loadPass i 2 s = loadScramble (ptSeed (serialBytes s.serial).ser0 s.counter s.button) 0 := by
    obtain rfl | rfl := hi <;> rfl
  have htable : passTable i 2 s s.seq = ktHalf (fillKT cfg s.seq.half0 s.seq.half1) cfg.ktHalfR := by
    obtain rfl | rfl := hi <;> rfl
  rw [← hp] at hk hload htable
  rw [bitStepped_work_of_rightPass hk hr h hload, htable, fillKT_of_thirdPass hthree hp hv, encPayload]

/-- DEC_PAYLOAD and DECODE have scrambled their ciphertext leftward under theirs (R141). -/
theorem bitStepped_work_of_decryption {w : Word} (hi : i = .decPayload ∧ w = s.block ∨ i = .decode ∧ w = s.payload0)
    (hp : s.seq.pass = 2) (hr : s.seq.r = 527) (h : DatapathInv i s) :
    (bitStepped i .left s).seq.work = (decPayload cfg (serialBytes s.serial) w (le8 s.dkey)).plain := by
  obtain ⟨-, hv, -⟩ := id h
  have hthree : lastPass i = 2 := by obtain ⟨rfl, -⟩ | ⟨rfl, -⟩ := hi <;> rfl
  have hk : passKind i 2 = some .left := by obtain ⟨rfl, -⟩ | ⟨rfl, -⟩ := hi <;> rfl
  have hload : loadPass i 2 s = loadScramble (le4 w) 1 := by obtain ⟨rfl, rfl⟩ | ⟨rfl, rfl⟩ := hi <;> rfl
  have htable : passTable i 2 s s.seq = ktHalf (fillKT cfg s.seq.half0 s.seq.half1) cfg.ktHalfL := by
    obtain ⟨rfl, -⟩ | ⟨rfl, -⟩ := hi <;> rfl
  rw [← hp] at hk hload htable
  rw [bitStepped_work_of_leftPass hk hr h hload, htable, fillKT_of_thirdPass hthree hp hv]
  rfl

/-- With its last bit-step taken a payload command's datapath holds what Complete computes. -/
theorem exec_bitStepped_threePass (hi : lastPass i = 2) (hb : (bitStepped i kind s).seq.phase = .busy)
    (hk : passKind i s.seq.pass = some kind) (hp : s.seq.pass = 2) (hr : s.seq.r = 527) (h : DatapathInv i s) :
    exec i (bitStepped i kind s) = .next (commitDatapath i (bitStepped i kind s)) := by
  obtain ⟨-, hv, -⟩ := id h
  have hkt := fillKT_of_thirdPass hi ((bitStepped_pass i kind s).trans hp) (passesInv_bitStepped kind hv)
  rw [hp] at hk
  obtain rfl | rfl | rfl | rfl := threePass_cases hi <;> cases hk
  · rw [exec_encPayload_busy hb]
    simp only [commitDatapath, hkt, bitStepped_work_of_encryption (.inl rfl) hp hr h]
    rfl
  · rw [exec_decPayload_busy hb]
    simp only [commitDatapath, hkt, bitStepped_work_of_decryption (.inl ⟨rfl, rfl⟩) hp hr h]
    rfl
  · rw [exec_build_busy hb]
    simp only [commitDatapath, hkt, bitStepped_work_of_encryption (.inr rfl) hp hr h]
    rfl
  · rw [exec_decode_busy_payload0 hb]
    simp only [commitDatapath, hkt, bitStepped_work_of_decryption (.inr ⟨rfl, rfl⟩) hp hr h]
    rfl

/-- With its last bit-step taken a command's datapath holds what Complete computes (R273). -/
theorem exec_bitStepped (hb : (bitStepped i kind s).seq.phase = .busy) (hk : passKind i s.seq.pass = some kind)
    (hp : s.seq.pass = lastPass i) (hr : s.seq.r = 527) (h : DatapathInv i s) :
    exec i (bitStepped i kind s) = .next (commitDatapath i (bitStepped i kind s)) := by
  obtain ⟨-, hv, -⟩ := id h
  have hv' := passesInv_bitStepped kind hv
  have hp' := (bitStepped_pass i kind s).trans hp
  cases i with
  | nop | pulse => cases hk
  | stdEnc =>
    cases hk
    have hblk := bitStepped_blk_of_encPass (i := .stdEnc) rfl hr h rfl
    rw [exec_stdEnc_busy hb, commitDatapath, hblk]
    rfl
  | stdDec =>
    cases hk
    have hblk := bitStepped_blk_of_decPass (i := .stdDec) rfl hr h rfl
    rw [exec_stdDec_busy hb, commitDatapath, hblk]
    rfl
  | derive =>
    cases hk
    have hlow := bitStepped_blk_of_decPass (i := .derive) (b := deriveSeedLo s.serial) rfl hr h (by rw [hp]; rfl)
    rw [exec_derive_busy hb, commitDatapath, hv' hp', hlow, commitDkey_append]
    rfl
  | expand =>
    cases hk
    have hupper := bitStepped_work_of_leftPass (i := .expand) (S := expandSeed (serialBytes s.serial) 0x60) rfl hr h
      (by rw [hp]; rfl)
    rw [exec_expand_busy hb, commitDatapath, hv' hp', hupper]
    rfl
  | scrL x =>
    cases hk
    have hwork := bitStepped_work_of_leftPass (i := .scrL x) rfl hr h rfl
    rw [exec_scrL_busy x hb, commitDatapath, hwork]
    rfl
  | scrR x =>
    cases hk
    have hwork := bitStepped_work_of_rightPass (i := .scrR x) rfl hr h rfl
    rw [exec_scrR_busy x hb, commitDatapath, hwork]
    rfl
  | encPayload | decPayload | build | decode => exact exec_bitStepped_threePass rfl hb hk hp hr h

end

/-! ## The part of the state the functional model speaks of -/

@[simp] theorem visible_phase (s : State) : (visible s).seq.phase = s.seq.phase := rfl

theorem visible_running (s : State) : (visible s).running = s.running := rfl

theorem visible_commitDecoded (d : Decoded) (s : State) : visible (commitDecoded d s) = commitDecoded d (visible s) := by
  cases hok : d.ok with
  | true => rw [commitDecoded_ok hok, commitDecoded_ok hok]; rfl
  | false => rw [commitDecoded_failed hok, commitDecoded_failed hok]; rfl

/-- Complete neither reads nor writes the datapath. -/
theorem exec_busy_visible {i : Instr} {s t : State} (hb : s.seq.phase = .busy) (hp : i ≠ .pulse)
    (h : exec i s = .next t) : exec i (visible s) = .next (visible t) := by
  have hb' : (visible s).seq.phase = .busy := hb
  cases i with
  | nop => cases (exec_nop_busy hb).symm.trans h; exact exec_nop_busy hb'
  | stdEnc => cases (exec_stdEnc_busy hb).symm.trans h; exact exec_stdEnc_busy hb'
  | stdDec => cases (exec_stdDec_busy hb).symm.trans h; exact exec_stdDec_busy hb'
  | derive => cases (exec_derive_busy hb).symm.trans h; exact exec_derive_busy hb'
  | expand => cases (exec_expand_busy hb).symm.trans h; exact exec_expand_busy hb'
  | scrL x => cases (exec_scrL_busy x hb).symm.trans h; exact exec_scrL_busy x hb'
  | scrR x => cases (exec_scrR_busy x hb).symm.trans h; exact exec_scrR_busy x hb'
  | encPayload => cases (exec_encPayload_busy hb).symm.trans h; exact exec_encPayload_busy hb'
  | build => cases (exec_build_busy hb).symm.trans h; exact exec_build_busy hb'
  | decPayload =>
    cases (exec_decPayload_busy hb).symm.trans h
    rw [visible_commitDecoded]
    exact exec_decPayload_busy hb'
  | decode =>
    cases (exec_decode_busy hb).symm.trans h
    rw [visible_commitDecoded]
    exact exec_decode_busy hb'
  | pulse => exact absurd rfl hp

theorem visible_bitStepped (i : Instr) (kind : PassKind) (s : State) : visible (bitStepped i kind s) = visible s := by
  obtain ⟨hphase, hop, htsel, -, hk, hrecs, -⟩ := bitStep_keeps kind (passTable i s.seq.pass s s.seq) s.seq
  simp only [visible, bitStepped, hphase, hop, htsel, hk, hrecs]

/-- The last cycle of a command and Complete agree in all the functional model speaks of. -/
theorem visible_cycle_last {i : Instr} {s t : State} (hb : s.seq.phase = .busy) (hn : i ≠ .nop) (hp : i ≠ .pulse)
    (hlast : s.seq.pass = lastPass i) (hr : s.seq.r = 527) (h : DatapathInv i s) (ht : exec i s = .next t) :
    visible (cycle i s) = visible t := by
  obtain ⟨kind, hk⟩ := passKind_of_bitSerial hn hp s.seq.pass
  have hcycle : cycle i s = commitDatapath i (bitStepped i kind s) := by
    have hmove := cycle_move i s
    generalize cycle i s = u at hmove
    cases hmove with
    | still hk' => cases hk.symm.trans hk'
    | inPass _ hr' => exact absurd hr hr'
    | endOfPass _ _ hlast' => exact absurd hlast hlast'
    | endOfCommand hk' => cases hk.symm.trans hk'; rfl
  obtain ⟨hphase, -⟩ := bitStep_keeps kind (passTable i s.seq.pass s s.seq) s.seq
  have hb' : (bitStepped i kind s).seq.phase = .busy := hphase.trans hb
  have hcommit := exec_busy_visible hb' hp (exec_bitStepped hb' hk hlast hr h)
  rw [visible_bitStepped, exec_busy_visible hb hp ht, ← hcycle] at hcommit
  exact (Host.Outcome.next.inj hcommit).symm

/-! ## A command's run, cycle by cycle -/

theorem visible_loadPass {i : Instr} (hp : i ≠ .pulse) (n : Fin 3) (s u : State) (q : Seq) :
    visible { s with seq := loadPass i n u q } = visible { s with seq := q } := by
  cases i with
  | pulse => exact absurd rfl hp
  | encPayload | decPayload | build | decode => match n with | 0 | 1 | 2 => rfl
  | _ => rfl

theorem visible_savePass (i : Instr) (n : Fin 3) (s : State) (q : Seq) :
    visible { s with seq := { savePass i q with pass := n } } = visible { s with seq := q } := by
  cases i with
  | encPayload | decPayload | build | decode => by_cases h : q.pass = 0 <;> simp [savePass, h, visible]
  | _ => rfl

theorem visible_nextPass {i : Instr} (hp : i ≠ .pulse) (s : State) : visible (nextPass i s) = visible s :=
  (visible_loadPass hp (s.seq.pass + 1) s s _).trans (visible_savePass i (s.seq.pass + 1) s s.seq)

theorem latency_of_bitSerial {i : Instr} (hn : i ≠ .nop) (hp : i ≠ .pulse) :
    latency i = 528 * (lastPass i).val + 528 := by
  cases i with
  | nop => exact absurd rfl hn
  | pulse => exact absurd rfl hp
  | _ => rfl

/-- The clock cycles a running command has taken. -/
def cyclesTaken (s : State) : Nat := 528 * s.seq.pass.val + s.seq.r.val

/-- `s` is `n` clock cycles into the run of `i` that began at `t`. -/
def RunsSince (i : Instr) (t : State) (n : Nat) (s : State) : Prop :=
  DatapathInv i s ∧ visible s = visible t ∧ cyclesTaken s = n

theorem runsSince_accept {i : Instr} (hn : i ≠ .nop) (hp : i ≠ .pulse) (s : State) :
    RunsSince i (accept i s) 0 (accept i s) := by
  obtain ⟨-, -, -, hpass⟩ := accept_latched i s
  obtain ⟨kind, hk⟩ := passKind_of_bitSerial hn hp 0
  have hr : (accept i s).seq.r = 0 := loadPass_r hk ..
  exact ⟨accept_datapathInv i s, rfl, by rw [cyclesTaken, hpass, hr]; rfl⟩

/-- The next pass starts where all the bit-steps of the passes before it have been taken. -/
theorem cyclesTaken_nextPass {i : Instr} {s : State} (hn : i ≠ .nop) (hp : i ≠ .pulse) (h : s.seq.pass < lastPass i) :
    cyclesTaken (nextPass i s) = 528 * (s.seq.pass.val + 1) := by
  obtain ⟨kind, hk⟩ := passKind_of_bitSerial hn hp (s.seq.pass + 1)
  have hr : (nextPass i s).seq.r = 0 := loadPass_r hk ..
  obtain ⟨hpass, -⟩ := nextPass_seq i s
  rw [cyclesTaken, hpass, hr, Fin.val_add_one_of_lt (h.trans_le (Fin.le_last _))]
  rfl

section
variable {i : Instr} {t s : State} {n : Nat}

theorem RunsSince.phase (h : RunsSince i t n s) : s.seq.phase = t.seq.phase := by
  obtain ⟨-, hvis, -⟩ := h
  rw [← visible_phase, hvis, visible_phase]

theorem RunsSince.running (h : RunsSince i t n s) : s.running = t.running := by
  obtain ⟨-, hvis, -⟩ := h
  rw [← visible_running, hvis, visible_running]

variable (hn : i ≠ .nop) (hp : i ≠ .pulse)
include hn hp

/-- A cycle before the last leaves the command running, one cycle further. -/
theorem RunsSince.next (h : RunsSince i t n s) (hlt : n + 1 < latency i) : RunsSince i t (n + 1) (cycle i s) := by
  obtain ⟨hd, hvis, rfl⟩ := h
  rw [latency_of_bitSerial hn hp, cyclesTaken] at hlt
  have hmove := cycle_move i s
  generalize cycle i s = u at hmove
  cases hmove with
  | still hk =>
    obtain ⟨kind, hk'⟩ := passKind_of_bitSerial hn hp s.seq.pass
    cases hk.symm.trans hk'
  | @inPass kind hk hr =>
    refine ⟨datapathInv_bitStepped hk hr hd, (visible_bitStepped ..).trans hvis, ?_⟩
    have hr' : (bitStepped i kind s).seq.r = s.seq.r + 1 := bitStep_r ..
    rw [cyclesTaken, bitStepped_pass, hr', Fin.val_add_one, if_neg (by simpa [Fin.ext_iff] using hr)]
    rfl
  | @endOfPass kind hk hr hlast =>
    refine ⟨datapathInv_nextPass hk hr hlast hd, (visible_nextPass hp _).trans ((visible_bitStepped ..).trans hvis), ?_⟩
    have hpass := bitStepped_pass i kind s
    obtain ⟨hle, -⟩ := hd
    rw [cyclesTaken_nextPass hn hp (by rw [hpass]; exact lt_of_le_of_ne hle hlast), hpass, cyclesTaken, hr]
    rfl
  | endOfCommand hk hr hlast =>
    rw [hr, hlast] at hlt
    exact absurd hlt (lt_irrefl _)

/-- One cycle before its latency a command is at the last bit-step of its last pass. -/
theorem RunsSince.last (h : RunsSince i t n s) (heq : n + 1 = latency i) : s.seq.pass = lastPass i ∧ s.seq.r = 527 := by
  obtain ⟨⟨hle, -⟩, -, rfl⟩ := h
  rw [latency_of_bitSerial hn hp, cyclesTaken] at heq
  have hle' : s.seq.pass.val ≤ (lastPass i).val := hle
  have hr := s.seq.r.isLt
  exact ⟨Fin.ext (by omega), Fin.ext (by show s.seq.r.val = 527; omega)⟩

theorem runsSince_times (hb : t.seq.phase = .busy) (hi : t.running = some i) (h : RunsSince i t 0 t)
    (hlt : n < latency i) : RunsSince i t n (times tickTurn n t) := by
  induction n with
  | zero => exact h
  | succ n ih =>
    have hrun := ih (Nat.lt_of_succ_lt hlt)
    rw [times, tickTurn_running (hrun.phase.trans hb) (hrun.running.trans hi)]
    exact hrun.next hn hp hlt

/-- The cycle of the latency completes the command with Complete's results (R280). -/
theorem visible_times_latency {u : State} (hb : t.seq.phase = .busy) (hi : t.running = some i) (h : RunsSince i t 0 t)
    (hu : exec i t = .next u) : visible (times tickTurn (latency i) t) = visible u := by
  obtain ⟨m, hm⟩ : ∃ m, latency i = m + 1 := ⟨_, latency_of_bitSerial hn hp⟩
  have hrun := runsSince_times (n := m) hn hp hb hi h (by omega)
  obtain ⟨hlast, hr⟩ := hrun.last hn hp hm.symm
  have hb' := hrun.phase.trans hb
  have hi' := hrun.running.trans hi
  obtain ⟨v, hv⟩ := exec_total i (times tickTurn m t)
  obtain ⟨hd, hvis, -⟩ := hrun
  rw [hm, times, tickTurn_running hb' hi', visible_cycle_last hb' hn hp hlast hr hd hv]
  have hresult := exec_busy_visible hb' hp hv
  rw [hvis, exec_busy_visible hb hp hu] at hresult
  exact (Host.Outcome.next.inj hresult).symm

end

end Sys2Proof.Machine

open Sys2Proof Sys2Proof.Machine

/-- Settles O58: with the last bit-step taken the datapath holds what Complete computes from the registers. -/
theorem lastCycleCommitsWhatCompleteCommits : Obligations.LastCycleCommitsWhatCompleteCommits := by
  intro s i h hb hi hp hlast hr
  obtain ⟨-, -, ⟨hn, -⟩, hd, -⟩ := (inv_running_iff hb hi hp).1 h
  obtain ⟨t, ht⟩ := exec_total i s
  refine ⟨t, ht, ?_⟩
  rw [tickTurn_running hb hi]
  exact visible_cycle_last hb hn hp hlast hr hd ht

/-- Settles O59, by induction on the cycles since acceptance. -/
theorem commandsTakeTheirLatency : Obligations.CommandsTakeTheirLatency := by
  refine ⟨rfl, rfl, fun _ => rfl, fun _ => rfl, rfl, rfl, rfl, rfl, rfl, rfl, fun i s t u hidle hn hp ht hb hu => ?_⟩
  obtain ⟨code, rfl⟩ | ⟨-, -, -, rfl⟩ | ⟨hpulse, -⟩ := exec_idle_cases hidle ht
  · cases hb
  · have hstart := runsSince_accept hn hp s
    have hi := accept_running i s
    exact ⟨fun n hlt => (runsSince_times hn hp hb hi hstart hlt).phase.trans hb,
      visible_times_latency hn hp hb hi hstart hu⟩
  · exact absurd hpulse hp
end

section
/-! A command other than PULSE ends, whatever the schedule and the host do: each step uses up a turn, and a schedule that has
run out goes on with Complete (70_reset_and_hazards.md R273, R275). -/

namespace Sys2Proof.Machine

/-! ## No move but a step touches the schedule -/

theorem writeReg_turns (r : Reg) (v : Word) (s : State) : (writeReg r v s).turns = s.turns := by
  obtain ⟨-, e⟩ | ⟨-, e⟩ | ⟨-, -, e⟩ | ⟨-, e⟩ := writeReg_cases r v s <;> rw [e]
  · rfl
  · unfold writeCtrl
    split <;> rfl
  · obtain ⟨-, hturns⟩ := writeData_outside r v s
    exact hturns

theorem writeCmd_turns {w : Word} {s t : State} (h : writeCmd w s = .next t) : t.turns = s.turns := by
  obtain ⟨-, rfl⟩ | ⟨-, rfl⟩ | ⟨-, i, he⟩ := writeCmd_cases h
  · rfl
  · rfl
  · obtain ⟨-, -, hturns, -⟩ := exec_outside he
    exact hturns

theorem access_turns {a : BusAccess} {s t : State} (h : access a s = .next t) : t.turns = s.turns := by
  cases access_move h with
  | refused => rw [refuseAccess_eq]
  | read => obtain ⟨v, e⟩ | e := busRead_cases a.addr s <;> rw [e]
  | reserved => rfl
  | command _ _ _ hc => exact writeCmd_turns (s := { s with reply := .written }) hc
  | register => exact writeReg_turns ..

theorem cycle_turns (i : Instr) (s : State) : (cycle i s).turns = s.turns := by
  have hmove := cycle_move i s
  generalize cycle i s = t at hmove
  cases hmove with
  | still | inPass | endOfPass => rfl
  | @endOfCommand kind hk =>
    have hp : i ≠ .pulse := by rintro rfl; cases hk
    obtain ⟨-, -, hturns, -⟩ := (commitDatapath_completesInto hp (bitStepped i kind s)).outside
    exact hturns

theorem takeTurn_turns {turn : Turn} {s t : State} (h : takeTurn turn s = .next t) : t.turns = s.turns := by
  cases turn with
  | host =>
    obtain ⟨a, rest, -, ha⟩ | ⟨hs, rep, n, rfl⟩ := hostTurn_cases h
    · exact access_turns (s := { s with host := rest }) ha
    · rfl
  | complete =>
    obtain ⟨i, -, -, -, e⟩ | ⟨-, e⟩ := completeTurn_cases s
    · obtain ⟨-, -, hturns, -⟩ := exec_outside (e.symm.trans h)
      exact hturns
    · cases e.symm.trans h
      rfl
  | tick =>
    cases h
    obtain ⟨i, -, -, e⟩ | e := tickTurn_cases s <;> rw [e]
    exact cycle_turns i s
  | transfer =>
    obtain ⟨-, -, e⟩ | e := transferTurn_cases s <;> cases e.symm.trans h
    · obtain ⟨-, -, hturns, -⟩ := transfer_outside s
      exact hturns
    · rfl
  | hardReset => cases h; rfl
  | hostInReset =>
    cases h
    obtain ⟨hs, rep, e⟩ := hostInReset_cases s
    rw [e]
    rfl

theorem step_turns {s t : State} (h : step s = .next t) : t.turns = s.turns.tail := by
  rw [step_eq_takeTurn] at h
  exact takeTurn_turns h

/-! ## A step of a running command -/

/-- A step ends the running command or leaves it running. -/
theorem step_running_cases {s t : State} (hb : s.seq.phase = .busy) (h : step s = .next t) :
    t.seq.phase = .idle ∨ t.seq.phase = .busy ∧ t.running = s.running := by
  cases ht : t.seq.phase with
  | idle => exact .inl rfl
  | busy =>
    obtain ⟨-, hrunning, -⟩ := inputsStandWhileBusy s t hb h ht
    exact .inr ⟨rfl, hrunning⟩

/-- The step after the schedule has run out completes a command other than PULSE. -/
theorem step_scheduleEnded {i : Instr} {s t : State} (hb : s.seq.phase = .busy) (hi : s.running = some i)
    (hp : i ≠ .pulse) (hturns : s.turns = []) (h : step s = .next t) : t.seq.phase = .idle := by
  rw [step, hturns] at h
  obtain ⟨u, hu, hc⟩ := exec_busy hb hp
  have hexec : exec i s = .next t := (completeTurn_running hb hi hp).symm.trans h
  cases hu.symm.trans hexec
  exact hc.idle

/-! ## The run to the end of the command -/

/-- `n` steps lead to an Idle block, with `i` running before. -/
def EndsAfter (i : Instr) (n : Nat) (s : State) : Prop :=
  (∀ m < n, ∃ u, Host.Core.run core m s = .next u ∧ u.seq.phase = .busy ∧ u.running = some i) ∧
    ∃ t, Host.Core.run core n s = .next t ∧ t.seq.phase = .idle

theorem run_succ_of_step {M : Host.Core} {s t : M.State} (h : M.step s = .next t) (n : Nat) :
    M.run (n + 1) s = M.run n t := by
  rw [Host.Core.run, h]

theorem endsAfter_zero {s : State} (i : Instr) (h : s.seq.phase = .idle) : EndsAfter i 0 s :=
  ⟨fun _ hm => absurd hm (Nat.not_lt_zero _), s, rfl, h⟩

theorem EndsAfter.of_step {i : Instr} {n : Nat} {s t : State} (hb : s.seq.phase = .busy) (hi : s.running = some i)
    (hstep : step s = .next t) (h : EndsAfter i n t) : EndsAfter i (n + 1) s := by
  have hrun (m : Nat) : core.run (m + 1) s = core.run m t := run_succ_of_step (M := core) hstep m
  obtain ⟨hbefore, hend⟩ := h
  refine ⟨fun m hm => ?_, by rw [hrun]; exact hend⟩
  cases m with
  | zero => exact ⟨s, rfl, hb, hi⟩
  | succ m => rw [hrun]; exact hbefore m (Nat.lt_of_succ_lt_succ hm)

/-- A running command other than PULSE ends at the latest in the step after its schedule, by induction on the schedule. -/
theorem exists_endsAfter {i : Instr} (hp : i ≠ .pulse) (ts : List Turn) {s : State} (hturns : s.turns = ts)
    (hb : s.seq.phase = .busy) (hi : s.running = some i) : ∃ n ≤ ts.length + 1, EndsAfter i n s := by
  obtain ⟨-, step_total⟩ := noStepStopsTheMachine
  induction ts generalizing s with
  | nil =>
    obtain ⟨t, ht⟩ := step_total s
    have hidle := step_scheduleEnded hb hi hp hturns ht
    exact ⟨1, le_rfl, .of_step hb hi ht (endsAfter_zero i hidle)⟩
  | cons turn ts ih =>
    obtain ⟨t, ht⟩ := step_total s
    obtain hidle | ⟨hb', hi'⟩ := step_running_cases hb ht
    · exact ⟨1, by simp, .of_step hb hi ht (endsAfter_zero i hidle)⟩
    · have htail : t.turns = ts := by rw [step_turns ht, hturns, List.tail_cons]
      obtain ⟨n, hn, hends⟩ := ih htail hb' (hi'.trans hi)
      exact ⟨n + 1, Nat.succ_le_succ hn, .of_step hb hi ht hends⟩

end Sys2Proof.Machine

open Sys2Proof Sys2Proof.Machine

/-- Settles O60, by induction on the schedule. -/
theorem everyCommandEventuallyCompletes : Obligations.EveryCommandEventuallyCompletes :=
  fun s _ hb hi hp => exists_endsAfter hp s.turns rfl hb hi
end
